-- ==== Sys2Proof/Word.lean ====
section
/-! DEFINITION. The words of the T24: the byte that frames are made of, and the numbers of its
channels and keys. What the manual treats as bits (a byte of a frame, a wrapping number) is a bit
vector; what it treats as a count is a natural number. -/

namespace Sys2Proof

/-- One byte of a frame (R150: eight data bits, most significant bit first). -/
abbrev Byte := BitVec 8

/-- The number of a channel, 0..23, which is also the number of its electrode (R1). -/
abbrev ChannelNo := Fin 24

/-- The number of a key record, 0..15 (R114). -/
abbrev KeyNo := Fin 16

end Sys2Proof
end

