-- ==== Sys2Proof/Syntax.lean ====
section
/-! DEFINITION. The commands of the T24: one constructor for each row of spec/opcode_table.json.

A request row (IDENTIFY to UNKNOWN_REQUEST) is the command processor taking the earliest FULL
request slot (R164) when that slot holds a frame of the row's CODE. Its operands are the TAG and
the payload of that frame, which State holds, so the constructor carries none of its own
(notes/assumptions/2.md). The other rows are events at the engines, at the timers, on the bus and
at the pins; they carry what the outside world decides: the engine, the count of oscillator cycles,
the channel, the address and the bytes on the bus, the levels of the straps. -/

namespace Sys2Proof

/-- The four sense engines (R1). -/
inductive EngineId where
  | a | b | c | d
  deriving DecidableEq, Repr

/-- How the host ends a transaction (R157): by a STOP, or by a repeated START. -/
inductive EndKind where
  | stop | repeatedStart
  deriving DecidableEq, Repr

/-- The commands. -/
inductive Instr where
  /-- IDENTIFY (R170): taken from the earliest FULL slot. -/
  | identify
  /-- STATUS (R171): taken from the earliest FULL slot. -/
  | status
  /-- SET_CHANNEL (R30, R172): taken from the earliest FULL slot. -/
  | setChannel
  /-- GET_CHANNEL (R173): taken from the earliest FULL slot. -/
  | getChannel
  /-- SET_KEY (R174): taken from the earliest FULL slot. -/
  | setKey
  /-- CLEAR_KEY (R175): taken from the earliest FULL slot. -/
  | clearKey
  /-- GET_KEY (R175): taken from the earliest FULL slot. -/
  | getKey
  /-- SET_SCAN (R176): taken from the earliest FULL slot. -/
  | setScan
  /-- GET_SCAN (R176): taken from the earliest FULL slot. -/
  | getScan
  /-- SET_TIMING (R177): taken from the earliest FULL slot. -/
  | setTiming
  /-- SET_EVENTS (R177): taken from the earliest FULL slot. -/
  | setEvents
  /-- SET_MODE (R178): taken from the earliest FULL slot. -/
  | setMode
  /-- CALIBRATE (R179, R180): taken from the earliest FULL slot. -/
  | calibrate
  /-- MEASURE (R181): taken from the earliest FULL slot. -/
  | measure
  /-- CANCEL (R183): taken from the earliest FULL slot. -/
  | cancel
  /-- RESTART (R184): taken from the earliest FULL slot. -/
  | restart
  /-- UNKNOWN_REQUEST (R166): the earliest FULL slot holds a CODE that is none of the sixteen. -/
  | unknownRequest
  /-- SETTLE_END (R5): the settle period of an engine's burst ends. -/
  | settleEnd (engine : EngineId)
  /-- HALF_WINDOW_END (R6): the first half-window of an engine's burst ends, in which the sense
  oscillator ran through `cycles` cycles. -/
  | halfWindowEnd (engine : EngineId) (cycles : Nat)
  /-- BURST_COMPLETE (R9): the second half-window of an engine's burst ends, in which the sense
  oscillator ran through `cycles` cycles. -/
  | burstComplete (engine : EngineId) (cycles : Nat)
  /-- PERIOD_EXPIRY (R95, R96): the period timer runs out. -/
  | periodExpiry
  /-- INACTIVITY_EXPIRY (R109): the inactivity timer runs out. -/
  | inactivityExpiry
  /-- MAX_ON_EXPIRY (R59): the max-on timer of a channel runs out. -/
  | maxOnExpiry (channel : Nat)
  /-- WRITE_ADDRESS (R152): an address byte with the write direction. -/
  | writeAddress (address : BitVec 7)
  /-- WRITE_BYTE (R153): a byte the host writes after the address. -/
  | writeByte (byte : Byte)
  /-- TRANSACTION_END (R157): a STOP or a repeated START. -/
  | transactionEnd (kind : EndKind)
  /-- READ_ADDRESS (R156): an address byte with the read direction. -/
  | readAddress (address : BitVec 7)
  /-- HEAD_RETIRE (R143): the last bit of the frame's CRC byte has been clocked out. -/
  | headRetire
  /-- BUS_TIMEOUT (R158): 25 ms pass without an edge of SCL during a transaction. -/
  | busTimeout
  /-- POWER_ON_RESET (R186): VDD stands below 2.5 V. -/
  | powerOnReset
  /-- PIN_RESET (R186): RESET has been low for 2 µs. -/
  | pinReset
  /-- RESET_RELEASE (R186, R187): the last reset condition clears, with the levels of the straps at
  that moment (`true` is high). -/
  | resetRelease (adr1 adr0 : Bool)
  /-- FLAGS_BYTE_START (R141): the first bit of the FLAGS byte of a read goes out. -/
  | flagsByteStart
  deriving DecidableEq, Repr

end Sys2Proof
end

