-- ==== Sys2Proof/Decode.lean ====
section
/-! DEFINITION. The reading of a word as a command. No row of spec/opcode_table.json gives a word any
bits (every "fields" is empty and no row has a "fixed"), so no word spells a command; the bytes of
a request frame are read by the link port (Machine/LinkPort.lean) and the command processor
(Machine/Operands.lean). How commands come to run is notes/assumptions/21.md. -/

namespace Sys2Proof

/-- The command that a word spells by the table's bits: none, since no row gives any. -/
def decodeTableWord (_nbits _w : Nat) : Option Instr :=
  none

end Sys2Proof
end

