-- ==== Sys2Proof/Config.lean ====
section
/-! DEFINITION. What the manual leaves open: the value of a few bits of one reply body, and which
bursts complete in the instant of a stop. They are free values, drawn from constants with no body, so
that no proof can lean on them. -/

namespace Sys2Proof

/-- The `n`-th free byte: a value the manual does not state (notes/assumptions/7.md). The machine
reads free bytes at the value of `State.freeCount` and advances that counter past them. -/
opaque Config.freeByte (n : Nat) : Byte

/-- The completions of bursts that fall in the instant of a stop, between the stop at the scheduler and
the abandonment at the engines, in the order in which they are taken, each with its engine and the
oscillator cycles of its second half-window (R16; notes/assumptions/26.md). The machine reads it at
the value of `State.freeCount` and advances that counter. An engine that is not in HALF2 has no burst
to complete. -/
opaque Config.stopMeets (n : Nat) : List (EngineId × Nat)

end Sys2Proof
end

