-- ==== Sys2Proof/Machine/State.lean ====
section
/-! DEFINITION. The state of the T24: every piece of state the manual gives the part, block by block,
as plain data, with the value each holds after a reset. Two fields are the model's own
(`State.nextJob`, `State.freeCount`), `State.pending` is the queue of commands that wait, and
`State.lines` the queue of changes at the bus lines that wait. -/

namespace Sys2Proof.Machine

/-! ## Names -/

/-- The scanner mode (R100). -/
inductive Mode where
  | stopped | service | active | doze
  deriving DecidableEq, Repr

/-- The cause a MODE event carries (R101). -/
inductive ModeCause where
  | request | work | workDone | idleTimeout | touch
  deriving DecidableEq, Repr

/-- The kind of the last reset (R171). -/
inductive ResetCause where
  | power | pin | restart
  deriving DecidableEq, Repr

/-- The eight states of a channel (R23). -/
inductive ChannelState where
  | off | uncal | calibrating | idle | pressing | touched | releasing | fault
  deriving DecidableEq, Repr

/-- How calibration finds the window code (R20). -/
inductive WindowMode where
  | fixed | auto
  deriving DecidableEq, Repr

/-- The reason a touch ended outside the normal release (R27). -/
inductive ReleaseNote where
  | none | timeout | reconfig
  deriving DecidableEq, Repr

/-- The kind of a FAULT sample (R11). -/
inductive FaultKind where
  | short | overrange
  deriving DecidableEq, Repr

/-- The condition a FAULT event carries (R42). -/
inductive FaultCondition where
  | short | overrange | clear
  deriving DecidableEq, Repr

/-- The class of a sample (R11). -/
inductive SampleClass where
  | clean | noisy | fault (kind : FaultKind)
  deriving DecidableEq, Repr

/-- The outcome of a calibration job (R63). -/
inductive CalOutcome where
  | ok | low | high | noise | fault | aborted
  deriving DecidableEq, Repr

/-- A key is a button or a slider (R114). -/
inductive KeyKind where
  | button | slider
  deriving DecidableEq, Repr

/-- The state of a key (R114). -/
inductive KeyState where
  | released | pressed
  deriving DecidableEq, Repr

/-- The cause a RELEASE event carries (R121, R127). -/
inductive ReleaseCause where
  | normal | fault | timeout | reconfig | stopped
  deriving DecidableEq, Repr

/-- The reason a LINK event carries (R153, R154). -/
inductive LinkReason where
  | badLen | long | short | crc
  deriving DecidableEq, Repr

/-- The status of a REPLY or a COMPLETE (chapter 9, codes). -/
inductive Status where
  | ok | accepted | badCode | badLen | range | state | busy | conflict | full | tagInUse
  | notFound | done | partialDone | aborted | cancelled
  deriving DecidableEq, Repr

/-! ## Sense engines (chapter 1) -/

/-- The purpose of a burst, with the reference the burst record holds for it (R3): the job of a CAL
burst, named by its serial number (notes/assumptions/5.md), or the pending tag of a MEASURE burst. -/
inductive Purpose where
  | scan | cal (job : Nat) | measure (tag : Byte)
  deriving DecidableEq, Repr

/-- The burst record (R3). -/
structure BurstRecord where
  channel : ChannelNo
  purpose : Purpose
  slot : Nat
  step : Nat
  window : Nat
  generation : BitVec 8
  deriving DecidableEq, Repr

/-- A sense engine (R2): IDLE with no record, or in one of the three parts of a burst with the burst
record and the window timer, in reference ticks as it was started for the part (R5, R6). HALF1 and
HALF2 hold the counter, and HALF2 the first half-count (notes/assumptions/17.md). -/
inductive Engine where
  | idle
  | settle (record : BurstRecord) (timer : Nat)
  | half1 (record : BurstRecord) (timer counter : Nat)
  | half2 (record : BurstRecord) (timer counter c1 : Nat)
  deriving DecidableEq, Repr

/-- One thing for each of the four engines. -/
structure PerEngine (α : Type) where
  a : α
  b : α
  c : α
  d : α
  deriving DecidableEq, Repr

/-- The sample a completed burst delivers (R10, R11). -/
structure Sample where
  channel : ChannelNo
  slot : Nat
  raw : Nat
  noise : Nat
  cls : SampleClass
  deriving DecidableEq, Repr

/-! ## The channel table (chapter 2) -/

/-- A timer that counts the 1 ms tick: `none` is stopped, `some n` is running with `n` ms left. -/
abbrev Timer := Option Nat

/-- The eighteen configuration fields of a channel (R20), with their defaults. -/
structure ChannelConfig where
  enabled : Bool := false
  hopList : List Nat := [3]
  windowMode : WindowMode := .fixed
  windowCode : Nat := 16
  target : Nat := 4000
  tolerance : Nat := 400
  touchThreshold : Nat := 40
  hysteresis : Nat := 10
  pressDebounce : Nat := 3
  releaseDebounce : Nat := 3
  filterDepth : Nat := 2
  noiseLimit : Nat := 64
  noiseRun : Nat := 4
  driftInterval : Nat := 32
  negThreshold : Nat := 20
  negRun : Nat := 8
  maxOnTime : Nat := 40
  autocal : Bool := false
  deriving DecidableEq, Repr

/-- A slot record (R21): the step, and baseline and filtered value in sixteenths. -/
structure Slot where
  step : Nat
  baseline : Option Nat := none
  filtered : Option Nat := none
  reseed : Bool := false
  deriving DecidableEq, Repr

/-- A channel record (R19): configuration, slot records and live fields (R23 to R27), with the
values of R37. -/
structure Channel where
  config : ChannelConfig := {}
  slots : List Slot := [{ step := 3 }]
  state : ChannelState := .off
  generation : BitVec 8 := 0
  current : Nat := 0
  debounce : Nat := 0
  noisyRun : Nat := 0
  noiseOn : Bool := false
  faultRun : Nat := 0
  goodRun : Nat := 0
  driftCount : Nat := 0
  negRun : Nat := 0
  maxOn : Timer := none
  lastRaw : Nat := 0
  lastNoise : Nat := 0
  lastDelta : Option Int := none
  note : ReleaseNote := .none
  deriving DecidableEq, Repr

/-! ## The calibration unit (chapter 4) -/

/-- Who asked for a calibration job (R63). -/
inductive JobOrigin where
  | request (tag : Byte) | automatic
  deriving DecidableEq, Repr

/-- The part of a job in progress (R63). -/
inductive JobPhase where
  | search | acquire
  deriving DecidableEq, Repr

/-- A calibration job (R63). Its channel is the place it holds in `State.jobs`; `serial` is the
model's name for it (notes/assumptions/5.md). -/
structure Job where
  serial : Nat
  origin : JobOrigin
  phase : JobPhase
  lo : Nat := 1
  hi : Nat := 64
  acquireSlot : Nat := 0
  cleanCount : Nat := 0
  sum : Nat := 0
  noisyCount : Nat := 0
  faultRun : Nat := 0
  outcome : Option CalOutcome := none
  deriving DecidableEq, Repr

/-! ## The scheduler (chapters 5 and 6) -/

/-- A scan-list entry (R82). -/
structure ScanEntry where
  channel : ChannelNo
  doze : Bool
  deriving DecidableEq, Repr

/-- A work item (R86); a CAL item names its job by the serial number. -/
inductive WorkItem where
  | scan (channel : ChannelNo)
  | cal (channel : ChannelNo) (job : Nat)
  | measure (channel : ChannelNo) (tag : Byte)
  deriving DecidableEq, Repr

/-- The kind of a cycle (R84). -/
inductive CycleKind where
  | active | doze | service
  deriving DecidableEq, Repr

/-- The cycle in flight (R84). -/
structure Cycle where
  kind : CycleKind
  lists : PerEngine (List WorkItem)
  late : Bool := false
  startOwed : Bool := false
  deriving DecidableEq, Repr

/-- The inactivity timer (R100). -/
inductive InactivityTimer where
  | stopped | running (ms : Nat) | expired
  deriving DecidableEq, Repr

/-- The scheduler's state (R82, R84, R94, R97, R100), with its values after every reset. -/
structure Scheduler where
  scanList : List ScanEntry := []
  cycle : Option Cycle := none
  periodTimer : Timer := none
  mode : Mode := .stopped
  inactivity : InactivityTimer := .stopped
  quiet : Bool := false
  activePeriod : Nat := 20
  dozePeriod : Nat := 200
  idleTime : Nat := 30
  cycleCount : BitVec 32 := 0
  overruns : Nat := 0
  deriving DecidableEq, Repr

/-! ## The key evaluator (chapter 7) -/

/-- A defined key record (R114); an undefined key is the absence of one. -/
structure Key where
  kind : KeyKind
  channels : List ChannelNo
  group : Option Nat
  slideStep : Option Nat
  state : KeyState := .released
  lastPosition : Option Nat := none
  deriving DecidableEq, Repr

/-! ## The pending-request table (chapter 10) -/

/-- A result of an ended job in a CALIBRATE entry (R77). -/
structure CalResult where
  channel : ChannelNo
  outcome : CalOutcome
  window : Nat
  deriving DecidableEq, Repr

/-- A delivered sample in a MEASURE entry (R15). -/
structure MeasureResult where
  raw : Nat
  noise : Nat
  cls : SampleClass
  deriving DecidableEq, Repr

/-- What a pending entry waits for, by its kind (R168; notes/assumptions/25.md). -/
inductive LongWork where
  | calibrate (subjects : List ChannelNo) (results : List CalResult)
  | measure (channel : ChannelNo) (slot count : Nat) (results : List MeasureResult)
  deriving DecidableEq, Repr

/-- An entry of the pending-request table (R168). -/
structure PendingEntry where
  tag : Byte
  work : LongWork
  deriving DecidableEq, Repr

/-! ## The outbound queue (chapter 8) -/

/-- Why a channel was re-baselined or calibrated, as a RECAL event carries it (R58, R59, R78). -/
inductive RecalReason where
  | autoCal (outcome : CalOutcome) (window : Nat) | negative | stuck
  deriving DecidableEq, Repr

/-- What follows tag and status in a REPLY (chapter 9, reply and completion bodies). The view of
GET_CHANNEL carries the place of the free bytes that fill what the manual leaves open in it
(notes/assumptions/7.md). -/
inductive ReplyData where
  | nothing
  | identity (address : BitVec 7)
  | status (mode : Mode) (cause : ResetCause) (held pending lost overruns : Nat)
      (cycles : BitVec 32)
  | channel (view : Channel) (free : Nat)
  | key (key : KeyNo) (record : Option Key)
  | scanList (entries : List ScanEntry)
  deriving DecidableEq, Repr

/-- The body of an outbound entry, by its kind (R131, R132; chapter 9, event bodies). -/
inductive Body where
  | ready (cause : ResetCause) (revision : Nat) (tag : Option Byte)
  | reply (tag : Byte) (status : Status) (data : ReplyData)
  | complete (tag : Byte) (status : Status) (work : LongWork)
  | press (key : KeyNo) (strength : Nat) (position : Option Nat)
  | release (key : KeyNo) (cause : ReleaseCause)
  | slide (key : KeyNo) (position : Nat)
  | fault (channel : ChannelNo) (condition : FaultCondition)
  | noise (channel : ChannelNo) (on : Bool) (slot : Nat)
  | recal (channel : ChannelNo) (reason : RecalReason)
  | mode (mode : Mode) (cause : ModeCause)
  | link (reason : LinkReason) (tag : Option Byte)
  | overrun (lost : Nat)
  deriving DecidableEq, Repr

/-- How far an entry has gone toward the host (R131). -/
inductive ReadState where
  | queued | sending | resent
  deriving DecidableEq, Repr

/-- An entry of the outbound queue (R131); its kind is the constructor of its body. -/
structure Entry where
  seq : Byte
  body : Body
  read : ReadState := .queued
  deriving DecidableEq, Repr

/-- The outbound queue (R131, R133, R134, R138). The mask is the byte SET_EVENTS writes, one bit for
each maskable kind, 1 enabled (chapter 9). -/
structure Queue where
  entries : List Entry
  nextSeq : Byte
  lost : Nat := 0
  mask : Byte := 0xFF
  deriving DecidableEq, Repr

/-! ## The link port (chapter 9) -/

/-- A request frame in a FULL slot (R152, R161). Its LEN is 3 more than the payload is long
(notes/assumptions/11.md). -/
structure Frame where
  tag : Byte
  code : Byte
  payload : List Byte
  deriving DecidableEq, Repr

/-- A request slot (R152): EMPTY, FILLING with the bytes stored so far after LEN, or FULL. -/
inductive RequestSlot where
  | empty | filling (bytes : List Byte) | full (frame : Frame)
  deriving DecidableEq, Repr

/-- The two request slots (R152). -/
inductive SlotId where
  | first | second
  deriving DecidableEq, Repr

/-- The record of a write transaction (R151). -/
structure WriteRecord where
  slot : SlotId
  received : Nat := 0
  len : Option Byte := none
  tag : Option Byte := none
  overlong : Bool := false
  refused : Bool := false
  deriving DecidableEq, Repr

/-- The transmission a read transaction carries (R140, R141, R156): of the head entry or of a NONE
frame; whether the head was RESENT at its start; the FLAGS byte once its first bit has gone out;
the bytes of the frame fixed so far; whether the head has been retired. -/
structure Transmission where
  ofHead : Bool
  resent : Bool
  flags : Option Byte := none
  frame : List Byte
  retired : Bool := false
  deriving DecidableEq, Repr

/-- The transaction record (R151). -/
inductive Transaction where
  | none | write (record : WriteRecord) | read (transmission : Transmission)
  deriving DecidableEq, Repr

/-- The link port (R149, R151, R152, R158): the slots, the FULL slots in the order they became FULL,
the transaction record, the bus timeout with the ms left to it, the acknowledge the port gave in
the last acknowledge bit (`true`: SDA driven low; notes/assumptions/12.md), and the target address in
force. -/
structure LinkPort where
  slot0 : RequestSlot := .empty
  slot1 : RequestSlot := .empty
  fullOrder : List SlotId := []
  transaction : Transaction := .none
  busTimer : Timer := none
  ack : Bool := false
  address : BitVec 7
  deriving DecidableEq, Repr

/-! ## The bus (R150) -/

/-- A change outside the part at the two lines of the bus (R150): the host drives SCL to a level, or
releases SDA (`true`) or pulls it low. -/
inductive LineChange where
  | scl (high : Bool) | sda (released : Bool)
  deriving DecidableEq, Repr

/-- What the port does with the bits of the byte on the bus (R150): it takes no part until the next
START; it receives the address byte, or a byte of a write; or it sends the byte of a read with this
index, counted from 0. -/
inductive BusRole where
  | off | address | receiving | sending (index : Nat)
  deriving DecidableEq, Repr

/-- The port at the lines of the bus (R150): the level of SCL; whether the host releases SDA; whether
a START has come with no STOP since; what the port does with the byte on the bus; and the levels of
SDA sampled so far in that byte, first bit first, the acknowledge bit ninth. Both lines are high at
reset, the level of an idle bus (notes/assumptions/27.md). -/
structure Bus where
  scl : Bool := true
  sda : Bool := true
  started : Bool := false
  role : BusRole := .off
  bits : List Bool := []
  deriving DecidableEq, Repr

/-! ## The whole part -/

/-- The state of the part. -/
structure State where
  /-- The commands that wait, first in first out (the model's own). -/
  pending : List Instr := []
  /-- The sense engines (R2). -/
  engines : PerEngine Engine := ⟨.idle, .idle, .idle, .idle⟩
  /-- The channel table (R19). -/
  channels : Vector Channel 24 := Vector.replicate 24 {}
  /-- The set of calibration jobs, at most one for each channel (R63). -/
  jobs : Vector (Option Job) 24 := Vector.replicate 24 none
  /-- The serial number of the next job (the model's own, notes/assumptions/5.md). -/
  nextJob : Nat := 0
  /-- The scheduler. -/
  sched : Scheduler := {}
  /-- The key table; an undefined key is `none` (R114). -/
  keys : Vector (Option Key) 16 := Vector.replicate 16 none
  /-- The outbound queue. -/
  queue : Queue
  /-- The link port. -/
  link : LinkPort
  /-- The port at the lines of the bus (R150). -/
  bus : Bus := {}
  /-- The changes at the lines of the bus that wait, first in first out (the model's own,
  notes/assumptions/27.md). -/
  lines : List LineChange := []
  /-- The pending-request table, oldest first (R168). -/
  table : List PendingEntry := []
  /-- The last reset cause (R171). -/
  lastCause : ResetCause
  /-- The reset from the pins that is in progress, with the cause it has so far (R186). -/
  inReset : Option ResetCause := none
  /-- How many free values have been drawn (the model's own, notes/assumptions/7.md, 26.md). -/
  freeCount : Nat := 0
  deriving DecidableEq, Repr

/-- What stops the machine: nothing. No rule of the manual gives the part a behaviour that stops it,
or leaves a behaviour undefined, so there is no fault (safe: a fault that cannot be raised;
notes/assumptions/6.md). -/
inductive Fault where
  deriving DecidableEq, Repr

/-- Why a command has no meaning. -/
inductive Refusal where
  /-- A row of the table whose meaning is not written yet, raised by `exec`'s arm alone. Safe: the
  model stops where the part goes on. No arm raises it now. -/
  | notModelled (mnemonic : String)
  deriving DecidableEq, Repr

/-- The queue right after a reset (R147): READY alone, with SEQ 0. The revision is 3. -/
def Queue.afterReset (cause : ResetCause) (tag : Option Byte) : Queue :=
  { entries := [{ seq := 0, body := .ready cause 3 tag }], nextSeq := 1 }

/-- The machine right after reset: the release of a power-on reset with both straps low (R18, R37,
R81, R82, R84, R113, R130, R147, R159, R185, R186; the strap levels are notes/assumptions/4.md). -/
def State.reset : State :=
  { queue := Queue.afterReset .power none
    link := { address := 0x64 }
    lastCause := .power }

end Sys2Proof.Machine
end

