-- ==== Sys2Proof/Machine/Flags.lean ====
section
/-! DEFINITION. The flag bytes of the part: the FLAGS byte of an outbound frame (R162), the event
mask (R138), and the live flags and slot flags of the GET_CHANNEL view (chapter 9). -/

namespace Sys2Proof.Machine

/-- A byte with one bit set if the flag is. -/
def flagBit (n : Nat) (b : Bool) : Byte := if b then 1#8 <<< n else 0#8

/-- The FLAGS byte of an outbound frame: bit 0 RESENT, bit 1 MORE, the rest 0 (R162). -/
def flagsByte (resent more : Bool) : Byte := flagBit 0 resent ||| flagBit 1 more

/-- The bit of the event mask that enables a kind; READY, REPLY, COMPLETE and OVERRUN have none
(R138; chapter 9, codes). -/
def Body.maskBit : Body → Option Nat
  | .press _ _ _ => some 0
  | .release _ _ => some 1
  | .slide _ _ => some 2
  | .fault _ _ => some 3
  | .noise _ _ _ => some 4
  | .recal _ _ => some 5
  | .mode _ _ => some 6
  | .link _ _ => some 7
  | .ready _ _ _ => none
  | .reply _ _ _ => none
  | .complete _ _ _ => none
  | .overrun _ => none

/-- An event of a masked kind is not created (R138). -/
def Queue.masked (q : Queue) (b : Body) : Bool :=
  match b.maskBit with
  | some n => !q.mask.getLsbD n
  | none => false

/-- Give the bits of a byte above the lowest three the value of a free byte: the manual places
three flags in the byte and states no value for its other bits (notes/assumptions/7.md). -/
def withFreeHighBits (flags free : Byte) : Byte :=
  (flags &&& 0x07) ||| (free &&& 0xF8)

/-- The live flags of the GET_CHANNEL view: bit 0 noise condition on, bit 1 last delta present,
bit 2 max-on timer running. -/
def Channel.liveFlags (ch : Channel) : Byte :=
  flagBit 0 ch.noiseOn ||| flagBit 1 ch.lastDelta.isSome ||| flagBit 2 ch.maxOn.isSome

/-- The slot flags of the GET_CHANNEL view: bit 0 baseline present, bit 1 filtered value present,
bit 2 reseed flag. -/
def Slot.flags (sl : Slot) : Byte :=
  flagBit 0 sl.baseline.isSome ||| flagBit 1 sl.filtered.isSome ||| flagBit 2 sl.reseed

end Sys2Proof.Machine
end

