-- ==== Sys2Proof/Machine/Frames.lean ====
section
/-! DEFINITION. The frames of the link (chapter 9): the CRC, the codes, and the byte layout of every
outbound body. -/

namespace Sys2Proof.Machine

/-! ## Bytes and byte order (R163) -/

/-- A field of two bytes, most significant byte first. -/
def be16 (n : Nat) : List Byte := [BitVec.ofNat 8 (n / 256), BitVec.ofNat 8 n]

/-- A field of three bytes, most significant byte first. -/
def be24 (n : Nat) : List Byte := BitVec.ofNat 8 (n / 65536) :: be16 n

/-- A field of four bytes, most significant byte first. -/
def be32 (n : Nat) : List Byte := BitVec.ofNat 8 (n / 16777216) :: be24 n

/-- A signed field of two bytes, two's complement. -/
def beInt16 (z : Int) : List Byte := be16 (BitVec.ofInt 16 z).toNat

/-- A field of one byte. -/
def byteOf (n : Nat) : Byte := BitVec.ofNat 8 n

/-- A yes/no field: 0 for no, 1 for yes. -/
def boolByte (b : Bool) : Byte := if b then 1 else 0

/-- An optional field at the end of a body. -/
def optByte (o : Option Byte) : List Byte := o.toList

/-! ## The CRC (R160) -/

/-- One of the eight shifts: left by one place, and exclusive-OR with 0x2F if the bit shifted out
was 1. -/
def crcShift (r : Byte) : Byte := if r.msb then (r <<< 1) ^^^ 0x2F else r <<< 1

/-- The register after one byte. -/
def crcByte (r b : Byte) : Byte :=
  crcShift (crcShift (crcShift (crcShift (crcShift (crcShift (crcShift (crcShift (r ^^^ b))))))))

/-- The CRC over a list of bytes: the register starts at 0xFF. -/
def crc (bytes : List Byte) : Byte := bytes.foldl crcByte 0xFF

/-! ## Codes (chapter 9) -/

def Mode.code : Mode → Byte
  | .stopped => 0
  | .service => 1
  | .active => 2
  | .doze => 3

def ModeCause.code : ModeCause → Byte
  | .request => 0
  | .work => 1
  | .workDone => 2
  | .idleTimeout => 3
  | .touch => 4

def ResetCause.code : ResetCause → Byte
  | .power => 0
  | .pin => 1
  | .restart => 2

def ChannelState.code : ChannelState → Byte
  | .off => 0
  | .uncal => 1
  | .calibrating => 2
  | .idle => 3
  | .pressing => 4
  | .touched => 5
  | .releasing => 6
  | .fault => 7

def WindowMode.code : WindowMode → Byte
  | .fixed => 0
  | .auto => 1

def KeyKind.code : KeyKind → Byte
  | .button => 0
  | .slider => 1

def KeyState.code : KeyState → Byte
  | .released => 0
  | .pressed => 1

def ReleaseCause.code : ReleaseCause → Byte
  | .normal => 0
  | .fault => 1
  | .timeout => 2
  | .reconfig => 3
  | .stopped => 4

def FaultCondition.code : FaultCondition → Byte
  | .short => 0
  | .overrange => 1
  | .clear => 2

def CalOutcome.code : CalOutcome → Byte
  | .ok => 0
  | .low => 1
  | .high => 2
  | .noise => 3
  | .fault => 4
  | .aborted => 5

def LinkReason.code : LinkReason → Byte
  | .badLen => 0
  | .long => 1
  | .short => 2
  | .crc => 3

def ReleaseNote.code : ReleaseNote → Byte
  | .none => 0
  | .timeout => 1
  | .reconfig => 2

def SampleClass.code : SampleClass → Byte
  | .clean => 0
  | .noisy => 1
  | .fault .short => 2
  | .fault .overrange => 3

def Status.code : Status → Byte
  | .ok => 0x00
  | .accepted => 0x01
  | .badCode => 0x10
  | .badLen => 0x11
  | .range => 0x12
  | .state => 0x13
  | .busy => 0x14
  | .conflict => 0x15
  | .full => 0x16
  | .tagInUse => 0x17
  | .notFound => 0x18
  | .done => 0x20
  | .partialDone => 0x21
  | .aborted => 0x22
  | .cancelled => 0x23

/-- The KIND of an outbound frame. -/
def Body.kindCode : Body → Byte
  | .ready _ _ _ => 0x01
  | .reply _ _ _ => 0x02
  | .complete _ _ _ => 0x03
  | .press _ _ _ => 0x10
  | .release _ _ => 0x11
  | .slide _ _ => 0x12
  | .fault _ _ => 0x20
  | .noise _ _ _ => 0x21
  | .recal _ _ => 0x22
  | .mode _ _ => 0x30
  | .link _ _ => 0x31
  | .overrun _ => 0x32

/-! ## Bodies (chapter 9) -/

/-- The four hop-step bytes of the configuration block. Positions at or beyond the hop-list length
hold no step, and the manual states no value for them: they carry free bytes. -/
def hopBytes (hops : List Nat) (free : Nat) : List Byte :=
  (List.range 4).map fun i =>
    match hops[i]? with
    | some h => byteOf h
    | none => Config.freeByte (free + i)

/-- The configuration block of 28 bytes. -/
def ChannelConfig.block (g : ChannelConfig) (free : Nat) : List Byte :=
  [boolByte g.enabled, byteOf g.hopList.length] ++ hopBytes g.hopList free
    ++ [g.windowMode.code, byteOf g.windowCode] ++ be16 g.target ++ be16 g.tolerance
    ++ be16 g.touchThreshold ++ be16 g.hysteresis
    ++ [byteOf g.pressDebounce, byteOf g.releaseDebounce, byteOf g.filterDepth]
    ++ be16 g.noiseLimit ++ [byteOf g.noiseRun, byteOf g.driftInterval]
    ++ be16 g.negThreshold ++ [byteOf g.negRun, byteOf g.maxOnTime, boolByte g.autocal]

/-- One slot group of the GET_CHANNEL view. An absent value is sent as 0. -/
def Slot.group (sl : Slot) (free : Byte) : List Byte :=
  withFreeHighBits sl.flags free :: be24 (sl.baseline.getD 0) ++ be24 (sl.filtered.getD 0)

/-- How many free bytes a GET_CHANNEL view draws: four for hop steps, one for the live flags, and
one for the flags of each of up to four slots. -/
def viewFreeBytes : Nat := 9

/-- The GET_CHANNEL view (R36). -/
def Channel.view (ch : Channel) (free : Nat) : List Byte :=
  ch.config.block free
    ++ [ch.state.code, ch.generation, byteOf ch.current,
        withFreeHighBits ch.liveFlags (Config.freeByte (free + 4))]
    ++ be16 ch.lastRaw ++ be16 ch.lastNoise ++ beInt16 (ch.lastDelta.getD 0)
    ++ [byteOf ch.debounce, byteOf ch.noisyRun, byteOf ch.faultRun, byteOf ch.goodRun,
        byteOf ch.driftCount, byteOf ch.negRun]
    ++ be16 (ch.maxOn.getD 0) ++ [ch.note.code]
    ++ (ch.slots.zipIdx.flatMap fun p => p.1.group (Config.freeByte (free + 5 + p.2)))

/-- The view of a key record (R115): 4 bytes of body for an undefined key. -/
def keyView (k : KeyNo) : Option Key → List Byte
  | none => [byteOf k, 0]
  | some r =>
    [byteOf k, 1, r.kind.code, byteOf (r.group.getD 0), byteOf (r.slideStep.getD 0), r.state.code,
      boolByte r.lastPosition.isSome, byteOf (r.lastPosition.getD 0), byteOf r.channels.length]
      ++ r.channels.map fun c => byteOf c.val

/-- What follows tag and status in a REPLY. -/
def ReplyData.bytes : ReplyData → List Byte
  | .nothing => []
  | .identity address => [0x24, 3, address.setWidth 8, 24, 16, 32, 4]
  | .status mode cause held pending lost overruns cycles =>
    [mode.code, cause.code, byteOf held, byteOf pending, byteOf lost] ++ be16 overruns
      ++ be32 cycles.toNat
  | .channel view free => view.view free
  | .key k record => keyView k record
  | .scanList entries =>
    byteOf entries.length :: entries.flatMap fun e => [byteOf e.channel, boolByte e.doze]

/-- A result with outcome OK, LOW or HIGH is a success (R77). -/
def CalOutcome.isSuccess : CalOutcome → Bool
  | .ok | .low | .high => true
  | .noise | .fault | .aborted => false

/-- The success count of a CALIBRATE result list (R77). -/
def successCount (results : List CalResult) : Nat := results.countP fun r => r.outcome.isSuccess

/-- The failure count of a CALIBRATE result list (R77). -/
def failureCount (results : List CalResult) : Nat := results.countP fun r => !r.outcome.isSuccess

/-- What follows tag and status in a COMPLETE. -/
def LongWork.bytes : LongWork → List Byte
  | .calibrate _ results =>
    [byteOf (successCount results), byteOf (failureCount results)]
      ++ results.flatMap fun r => [byteOf r.channel, r.outcome.code, byteOf r.window]
  | .measure c slot _ results =>
    [byteOf c, byteOf slot, byteOf results.length]
      ++ results.flatMap fun r => be16 r.raw ++ be16 r.noise ++ [r.cls.code]

/-- Reason, outcome and window code of a RECAL body. -/
def RecalReason.bytes : RecalReason → List Byte
  | .autoCal outcome window => [0, outcome.code, byteOf window]
  | .negative => [1]
  | .stuck => [2]

/-- The bytes of a body. -/
def Body.bytes : Body → List Byte
  | .ready cause revision tag => [cause.code, byteOf revision] ++ optByte tag
  | .reply tag status data => [tag, status.code] ++ data.bytes
  | .complete tag status work => [tag, status.code] ++ work.bytes
  | .press k strength position =>
    byteOf k :: be16 strength ++ optByte (position.map byteOf)
  | .release k cause => [byteOf k, cause.code]
  | .slide k position => [byteOf k, byteOf position]
  | .fault c condition => [byteOf c, condition.code]
  | .noise c on slot => [byteOf c, boolByte on, byteOf slot]
  | .recal c reason => byteOf c :: reason.bytes
  | .mode m cause => [m.code, cause.code]
  | .link reason tag => reason.code :: optByte tag
  | .overrun lost => [byteOf lost]

/-! ## Outbound frames (R162) -/

/-- The bytes fixed when a transmission begins: LEN, KIND and SEQ. -/
def frameHead (kind seq : Byte) (body : List Byte) : List Byte :=
  [byteOf (4 + body.length), kind, seq]

/-- A whole outbound frame: LEN, KIND, SEQ, FLAGS, body, and the CRC over them. -/
def frameBytes (kind seq flags : Byte) (body : List Byte) : List Byte :=
  let covered := frameHead kind seq body ++ [flags] ++ body
  covered ++ [crc covered]

/-- The LEN of a request frame (R161). -/
def Frame.len (f : Frame) : Byte := byteOf (f.payload.length + 3)

/-- The bytes of a request frame (R161). -/
def Frame.bytes (f : Frame) : List Byte :=
  let covered := [f.len, f.tag, f.code] ++ f.payload
  covered ++ [crc covered]

end Sys2Proof.Machine
end

