-- ==== Sys2Proof/Machine/Ops.lean ====
section
/-! DEFINITION. The named operations over the parts of State: one read and one write for each part,
and the small questions the rules ask of the whole part. -/

namespace Sys2Proof.Machine

/-! ## Engines -/

/-- The engine that owns a channel (R1). -/
def engineOf (c : ChannelNo) : EngineId :=
  if c.val < 6 then .a else if c.val < 12 then .b else if c.val < 18 then .c else .d

/-- The thing held for one engine. -/
def PerEngine.get {α : Type} (p : PerEngine α) : EngineId → α
  | .a => p.a
  | .b => p.b
  | .c => p.c
  | .d => p.d

/-- Replace the thing held for one engine. -/
def PerEngine.set {α : Type} (p : PerEngine α) (e : EngineId) (x : α) : PerEngine α :=
  match e with
  | .a => { p with a := x }
  | .b => { p with b := x }
  | .c => { p with c := x }
  | .d => { p with d := x }

/-- An engine. -/
def State.engine (s : State) (e : EngineId) : Engine := s.engines.get e

/-- Replace an engine. -/
def State.setEngine (s : State) (e : EngineId) (x : Engine) : State :=
  { s with engines := s.engines.set e x }

/-- The burst record an engine holds (R2): none in IDLE. -/
def Engine.record? : Engine → Option BurstRecord
  | .idle => none
  | .settle r _ => some r
  | .half1 r _ _ => some r
  | .half2 r _ _ _ => some r

/-- Every engine IDLE, which is every burst abandoned without a sample (R16, R18). -/
def State.abandonBursts (s : State) : State :=
  { s with engines := ⟨.idle, .idle, .idle, .idle⟩ }

/-- The four engines are IDLE (R91). -/
def State.enginesIdle (s : State) : Bool :=
  s.engines.a == .idle && s.engines.b == .idle && s.engines.c == .idle && s.engines.d == .idle

/-- The frequency step at which an electrode is driven, if it is connected to its engine's sense
oscillator; every other electrode is held at VSS (R8; notes/assumptions/13.md). -/
def State.electrodeDrive (s : State) (n : ChannelNo) : Option Nat :=
  match (s.engine (engineOf n)).record? with
  | some r => if r.channel = n then some r.step else none
  | none => none

/-! ## Channels, jobs and keys -/

/-- The channel numbers in ascending order. -/
def allChannels : List ChannelNo := List.finRange 24

/-- The key numbers in ascending order. -/
def allKeys : List KeyNo := List.finRange 16

/-- A channel record. -/
def State.chan (s : State) (c : ChannelNo) : Channel := s.channels[c]

/-- Replace a channel record. -/
def State.setChan (s : State) (c : ChannelNo) (x : Channel) : State :=
  { s with channels := s.channels.set c x }

/-- Take one claim on every channel record (R61, R62, R116). -/
def State.mapChannels (s : State) (f : ChannelNo → Channel → Channel) : State :=
  { s with channels := Vector.ofFn fun c => f c s.channels[c] }

/-- The calibration job of a channel (R63). -/
def State.job (s : State) (c : ChannelNo) : Option Job := s.jobs[c]

/-- Replace the calibration job of a channel. -/
def State.setJob (s : State) (c : ChannelNo) (j : Option Job) : State :=
  { s with jobs := s.jobs.set c j }

/-- A key record; `none` is an undefined key (R114). -/
def State.key (s : State) (k : KeyNo) : Option Key := s.keys[k]

/-- Replace a key record. -/
def State.setKeyRecord (s : State) (k : KeyNo) (x : Option Key) : State :=
  { s with keys := s.keys.set k x }

/-! ## States of a channel -/

/-- A channel that holds a touch or part of one: PRESSING, TOUCHED or RELEASING. -/
def ChannelState.isTouch : ChannelState → Bool
  | .pressing | .touched | .releasing => true
  | .off | .uncal | .calibrating | .idle | .fault => false

/-- A channel that detects: IDLE, PRESSING, TOUCHED or RELEASING (R22). -/
def ChannelState.isDetecting : ChannelState → Bool
  | .idle | .pressing | .touched | .releasing => true
  | .off | .uncal | .calibrating | .fault => false

/-- A channel that SCAN bursts measure (R86). -/
def ChannelState.isScanned : ChannelState → Bool
  | .idle | .pressing | .touched | .releasing | .fault => true
  | .off | .uncal | .calibrating => false

/-! ## The scan list and the mode -/

/-- The channel has a scan-list entry. -/
def State.inScanList (s : State) (c : ChannelNo) : Bool :=
  s.sched.scanList.any fun e => e.channel == c

/-- The channel has a scan-list entry that is a doze member (R83). -/
def State.isDozeMember (s : State) (c : ChannelNo) : Bool :=
  s.sched.scanList.any fun e => e.channel == c && e.doze

/-- The channel has a scan-list entry that is not a doze member (R61). -/
def State.isNonDozeEntry (s : State) (c : ChannelNo) : Bool :=
  s.sched.scanList.any fun e => e.channel == c && !e.doze

/-- The mode is ACTIVE or DOZE. -/
def State.isScanning (s : State) : Bool :=
  s.sched.mode == .active || s.sched.mode == .doze

/-! ## The pending-request table -/

/-- The pending entry that carries a tag (R168: at most one). -/
def State.entryOfTag (s : State) (tag : Byte) : Option PendingEntry :=
  s.table.find? fun e => e.tag == tag

/-- The channel a MEASURE entry measures. -/
def LongWork.measured : LongWork → Option ChannelNo
  | .calibrate _ _ => none
  | .measure c _ _ _ => some c

/-- The channel is the subject of a pending MEASURE (R30). -/
def State.measurePending (s : State) (c : ChannelNo) : Bool :=
  s.table.any fun e => e.work.measured == some c

/-! ## Counts of the outbound queue -/

/-- The number of entries in the outbound queue (R131). -/
def State.held (s : State) : Nat := s.queue.entries.length

/-- Held + pending: the entries of the queue and of the pending-request table (R134). -/
def State.load (s : State) : Nat := s.held + s.table.length

/-- ATN is driven low while the queue holds an entry and no reset from the pins is in progress
(R146, R186; notes/assumptions/13.md). -/
def State.atnLow (s : State) : Bool :=
  s.inReset.isNone && !s.queue.entries.isEmpty

/-! ## Timers -/

/-- Start a timer with `ms` ms; a time of 0 starts none (R54, R108). -/
def startTimer (ms : Nat) : Timer := if ms = 0 then none else some ms

/-- The 1 ms tick at a timer: a running timer counts down to its last ms, in which its expiry, a
command of its own, falls due (notes/assumptions/3.md). -/
def Timer.tick (t : Timer) : Timer := t.map fun n => if n ≤ 1 then n else n - 1

/-- The 1 ms tick at the inactivity timer. -/
def InactivityTimer.tick : InactivityTimer → InactivityTimer
  | .stopped => .stopped
  | .running n => .running (if n ≤ 1 then n else n - 1)
  | .expired => .expired

/-- One ms passes with no command: the timers that count the tick count down (R25, R94, R108, R158). -/
def State.tick (s : State) : State :=
  { s with
    channels := Vector.ofFn fun c => { s.channels[c] with maxOn := s.channels[c].maxOn.tick }
    sched := { s.sched with
      periodTimer := s.sched.periodTimer.tick
      inactivity := s.sched.inactivity.tick }
    link := { s.link with busTimer := s.link.busTimer.tick } }

end Sys2Proof.Machine
end

