-- ==== Sys2Proof/Machine/Queue.lean ====
section
/-! DEFINITION. The outbound queue (chapter 8): admission, the lost-event count, the event mask, the
coalescing of SLIDE, and the read states of the head. -/

namespace Sys2Proof.Machine

/-- An entry joins the queue at its tail with the next sequence number (R131, R133). -/
def Queue.join (q : Queue) (b : Body) : Queue :=
  { q with entries := q.entries ++ [{ seq := q.nextSeq, body := b }], nextSeq := q.nextSeq + 1 }

/-- An event is dropped and counted; the count saturates at 255 (R134). -/
def Queue.drop (q : Queue) : Queue := { q with lost := min 255 (q.lost + 1) }

/-- The entry is a SLIDE for the key from which no byte has been sent (R139). -/
def Entry.isQueuedSlide (k : KeyNo) (e : Entry) : Bool :=
  match e.body with
  | .slide k' _ => k' == k && e.read == .queued
  | _ => false

/-- A QUEUED SLIDE for the key takes the offered position in place (R139). -/
def Entry.coalesce (k : KeyNo) (position : Nat) (e : Entry) : Entry :=
  if e.isQueuedSlide k then { e with body := .slide k position } else e

/-- An event is judged against the room for events, with an OVERRUN ahead of it where events were
lost (R134, R135). `pending` is the number of pending-table entries. -/
def Queue.admitEvent (q : Queue) (pending : Nat) (b : Body) : Queue :=
  if q.entries.length + pending < 28 then
    if 0 < q.lost then
      let q' := { q.join (.overrun q.lost) with lost := 0 }
      if q'.entries.length + pending < 28 then q'.join b else q'.drop
    else q.join b
  else q.drop

/-- An event is offered: a masked kind is not created (R138), a SLIDE is folded into a QUEUED SLIDE
of its key (R139), and any other event is admitted or dropped (R134, R135). -/
def Queue.offer (q : Queue) (pending : Nat) (b : Body) : Queue :=
  if q.masked b then q
  else
    match b with
    | .slide k position =>
      if q.entries.any (Entry.isQueuedSlide k) then
        { q with entries := q.entries.map (Entry.coalesce k position) }
      else q.admitEvent pending b
    | _ => q.admitEvent pending b

/-- A producer offers an event to the queue (R134 to R139). -/
def State.post (s : State) (b : Body) : State :=
  { s with queue := s.queue.offer s.table.length b }

/-- A producer offers several events in order (R132). -/
def State.postAll (s : State) (bs : List Body) : State := bs.foldl State.post s

/-- An answer is admitted whatever the counts (R136). -/
def State.answer (s : State) (b : Body) : State := { s with queue := s.queue.join b }

/-- The REPLY to a request (R165). -/
def State.reply (s : State) (tag : Byte) (status : Status) (data : ReplyData := .nothing) : State :=
  s.answer (.reply tag status data)

/-- Change the read state of the head (R140, R142). -/
def Queue.setHeadRead (q : Queue) (r : ReadState) : Queue :=
  match q.entries with
  | [] => q
  | e :: rest => { q with entries := { e with read := r } :: rest }

/-- The head leaves the queue (R143). -/
def Queue.retire (q : Queue) : Queue := { q with entries := q.entries.tail }

/-- A pending entry completes: it leaves the table and its COMPLETE joins the queue (R169). -/
def State.completeEntry (s : State) (e : PendingEntry) (status : Status) : State :=
  { s with
    table := s.table.erase e
    queue := s.queue.join (.complete e.tag status e.work) }

end Sys2Proof.Machine
end

