-- ==== Sys2Proof/Machine/LinkPort.lean ====
section
/-! DEFINITION. The link port (chapter 9) and the host's read of the queue (chapter 8): the meanings
of WRITE_ADDRESS, WRITE_BYTE, TRANSACTION_END, READ_ADDRESS, FLAGS_BYTE_START, HEAD_RETIRE and
BUS_TIMEOUT. An event that the transaction record cannot raise is disregarded
(notes/assumptions/1.md). -/

namespace Sys2Proof.Machine

/-! ## Slots (R152) -/

/-- A request slot. -/
def LinkPort.slot (l : LinkPort) : SlotId → RequestSlot
  | .first => l.slot0
  | .second => l.slot1

/-- Replace a request slot. -/
def LinkPort.setSlot (l : LinkPort) (i : SlotId) (x : RequestSlot) : LinkPort :=
  match i with
  | .first => { l with slot0 := x }
  | .second => { l with slot1 := x }

/-- An EMPTY slot, if there is one (R152). The manual does not say which of two EMPTY slots a frame
fills, and the host cannot tell (notes/assumptions/8.md). -/
def LinkPort.emptySlot (l : LinkPort) : Option SlotId :=
  if l.slot0 = .empty then some .first
  else if l.slot1 = .empty then some .second
  else none

/-- The slot that became FULL earliest, with its frame (R152, R164). -/
def LinkPort.earliestFull (l : LinkPort) : Option (SlotId × Frame) :=
  match l.fullOrder with
  | i :: _ =>
    match l.slot i with
    | .full f => some (i, f)
    | .empty => none
    | .filling _ => none
  | [] => none

/-- The taking of a FULL slot returns it to EMPTY (R152). -/
def LinkPort.takeSlot (l : LinkPort) (i : SlotId) : LinkPort :=
  { l.setSlot i .empty with fullOrder := l.fullOrder.erase i }

/-- Replace the link port's state. -/
def State.withLink (s : State) (l : LinkPort) : State := { s with link := l }

/-- The bus timeout in ms (R158). -/
def busTimeoutMs : Nat := 25

/-- An edge of SCL during a transaction starts the bus timeout again (R158). -/
def LinkPort.edge (l : LinkPort) : LinkPort := { l with busTimer := some busTimeoutMs }

/-- The transaction record returns to NONE, and the bus timeout is no longer measured (R151, R158). -/
def LinkPort.closed (l : LinkPort) : LinkPort := { l with transaction := .none, busTimer := none }

/-! ## The write transaction (R152 to R155) -/

/-- WRITE_ADDRESS: the part's own address is acknowledged into an EMPTY slot; with neither slot
EMPTY, or for another address, it is not acknowledged (R149, R152). In reset the bus is ignored
(R186). -/
def State.writeAddress (s : State) (address : BitVec 7) : State :=
  if s.inReset.isSome ∨ s.link.transaction ≠ .none then s
  else if address ≠ s.link.address then s.withLink { s.link with ack := false }
  else
    match s.link.emptySlot with
    | some i =>
      s.withLink
        { (s.link.setSlot i (.filling [])).edge with
          transaction := .write { slot := i }, ack := true }
    | none => s.withLink { s.link with ack := false }

/-- A LEN byte is valid in 3..63 (R153). -/
def lenValid (b : Byte) : Bool := decide (3 ≤ b.toNat) && decide (b.toNat ≤ 63)

/-- The frame bytes stored so far in a slot. -/
def RequestSlot.bytes : RequestSlot → List Byte
  | .empty => []
  | .filling bs => bs
  | .full _ => []

/-- The first byte of a write is LEN (R153): a LEN outside 3..63 is refused with a LINK event. -/
def State.writeLen (s : State) (w : WriteRecord) (b : Byte) : State :=
  if lenValid b then
    s.withLink
      { s.link.edge with
        transaction := .write { w with received := w.received + 1, len := some b }, ack := true }
  else
    (s.withLink
      { (s.link.setSlot w.slot .empty).edge with
        transaction := .write { w with received := w.received + 1, refused := true }, ack := false
      }).post (.link .badLen none)

/-- A byte after a valid LEN is stored up to byte LEN + 1, and the first byte after that sets the
overlong mark (R153). -/
def State.writeNext (s : State) (w : WriteRecord) (len b : Byte) : State :=
  if w.received < len.toNat + 1 then
    let stored := (s.link.slot w.slot).bytes ++ [b]
    s.withLink
      { (s.link.setSlot w.slot (.filling stored)).edge with
        transaction := .write
          { w with
            received := w.received + 1
            tag := if w.received = 1 then some b else w.tag }
        ack := true }
  else
    s.withLink
      { s.link.edge with
        transaction := .write { w with received := w.received + 1, overlong := true }
        ack := false }

/-- WRITE_BYTE: a byte of a write is judged (R153). A byte written while the record is NONE goes
unacknowledged (R152, R158, R159). -/
def State.writeByte (s : State) (b : Byte) : State :=
  match s.link.transaction with
  | .none => s.withLink { s.link with ack := false }
  | .read _ => s
  | .write w =>
    if w.refused then
      s.withLink
        { s.link.edge with
          transaction := .write { w with received := w.received + 1 }, ack := false }
    else
      match w.len with
      | none => s.writeLen w b
      | some len => s.writeNext w len b

/-- A write transaction whose frame is discarded: the slot returns to EMPTY and a LINK event names
the reason (R154, R155, R158). -/
def State.discardFrame (s : State) (w : WriteRecord) (reason : LinkReason) (tag : Option Byte) :
    State :=
  (s.withLink (s.link.setSlot w.slot .empty).closed).post (.link reason tag)

/-- The frame that the stored bytes spell: TAG, CODE and payload, without the CRC (R153, R161). -/
def frameOf (len : Byte) (stored : List Byte) : Frame :=
  { tag := stored.getD 0 0, code := stored.getD 1 0,
    payload := (stored.take (len.toNat - 1)).drop 2 }

/-- The CRC byte received equals the CRC over LEN to the last payload byte (R154, R160). -/
def crcMatches (len : Byte) (stored : List Byte) : Bool :=
  crc (len :: stored.take (len.toNat - 1)) == stored.getD (len.toNat - 1) 0

/-- The end of a write whose refused mark is clear: the first test that holds decides (R154). -/
def State.judgeWrite (s : State) (w : WriteRecord) : State :=
  let stored := (s.link.slot w.slot).bytes
  match w.len with
  | none => s.discardFrame w .short w.tag
  | some len =>
    if w.received < len.toNat + 1 then s.discardFrame w .short w.tag
    else if w.overlong then s.discardFrame w .long w.tag
    else if crcMatches len stored then
      s.withLink
        { (s.link.setSlot w.slot (.full (frameOf len stored))).closed with
          fullOrder := s.link.fullOrder ++ [w.slot] }
    else s.discardFrame w .crc w.tag

/-! ## The read transaction (R140 to R143, R156) -/

/-- The kind, SEQ and body of the frame a read transaction carries: those of the head, or of a NONE
frame with the last sequence number used (R133, R140, R162). -/
def Queue.outgoing (q : Queue) : Byte × Byte × List Byte :=
  match q.entries with
  | e :: _ => (e.body.kindCode, e.seq, e.body.bytes)
  | [] => (0x00, q.nextSeq - 1, [])

/-- The transmission that begins at a read address (R140). -/
def Queue.transmission (q : Queue) : Transmission :=
  { ofHead := !q.entries.isEmpty
    resent := match q.entries with
      | e :: _ => e.read == .resent
      | [] => false
    frame := frameHead q.outgoing.1 q.outgoing.2.1 q.outgoing.2.2 }

/-- READ_ADDRESS: the part's own address with the read direction is always acknowledged, and the
transmission of the head or of a NONE frame begins (R140, R156). -/
def State.readAddress (s : State) (address : BitVec 7) : State :=
  if s.inReset.isSome ∨ s.link.transaction ≠ .none then s
  else if address ≠ s.link.address then s.withLink { s.link with ack := false }
  else
    { s with
      link := { s.link.edge with transaction := .read s.queue.transmission, ack := true }
      queue := s.queue.setHeadRead .sending }

/-- The frame once its FLAGS byte is fixed. A NONE frame is judged against the empty queue it was
begun for, whatever has joined since (R140). -/
def Transmission.settle (t : Transmission) (q : Queue) : Transmission :=
  if t.ofHead then
    let flags := flagsByte t.resent (decide (1 < q.entries.length))
    { t with
      flags := some flags
      frame := frameBytes q.outgoing.1 q.outgoing.2.1 flags q.outgoing.2.2 }
  else
    { t with
      flags := some (flagsByte false false)
      frame := frameBytes 0x00 (t.frame.getD 2 0) (flagsByte false false) [] }

/-- The byte of a read with an index, counted from 0: that of the frame, and after the frame's last byte
the filler 0xFF (R140, R156). -/
def Transmission.sentByte (t : Transmission) (index : Nat) : Byte := t.frame.getD index 0xFF

/-- The byte with an index is the last of the frame, its CRC, which is there once FLAGS is fixed (R141,
R143). -/
def Transmission.isCrc (t : Transmission) (index : Nat) : Bool :=
  t.flags.isSome && decide (t.frame.length = index + 1)

/-- The FLAGS byte is fixed once (R141). -/
def Transmission.settleOnce (t : Transmission) (q : Queue) : Transmission :=
  if t.flags.isSome then t else t.settle q

/-- FLAGS_BYTE_START: RESENT and MORE are fixed, and with them the CRC (R141, R156). -/
def State.flagsByteStart (s : State) : State :=
  match s.link.transaction with
  | .read t =>
    if t.flags.isSome then s
    else s.withLink { s.link.edge with transaction := .read (t.settle s.queue) }
  | .none => s
  | .write _ => s

/-- HEAD_RETIRE: the last bit of the CRC byte is out, and the head leaves the queue (R143). A NONE
frame retires nothing. All the frame's bytes have gone out by then, its FLAGS byte among them
(notes/assumptions/23.md). -/
def State.headRetire (s : State) : State :=
  match s.link.transaction with
  | .read t =>
    if t.ofHead && !t.retired then
      { s with
        link := { s.link.edge with
          transaction := .read { t.settleOnce s.queue with retired := true } }
        queue := s.queue.retire }
    else s
  | .none => s
  | .write _ => s

/-- The end of a transmission: a head still SENDING becomes RESENT (R142), and a retired head or a
NONE frame leaves the queue as it is (R143). -/
def State.endRead (s : State) (t : Transmission) : State :=
  let closed := s.withLink s.link.closed
  if t.ofHead && !t.retired then { closed with queue := s.queue.setHeadRead .resent } else closed

/-! ## The end of a transaction (R157, R158) -/

/-- TRANSACTION_END: a STOP or a repeated START; the port treats them alike (R157). -/
def State.transactionEnd (s : State) : State :=
  match s.link.transaction with
  | .none => s
  | .write w => if w.refused then s.withLink s.link.closed else s.judgeWrite w
  | .read t => s.endRead t

/-- BUS_TIMEOUT: the transaction is abandoned; a write is discarded as SHORT whatever it received,
and a read head still SENDING becomes RESENT (R158). -/
def State.busTimeout (s : State) : State :=
  match s.link.transaction with
  | .none => s
  | .write w => if w.refused then s.withLink s.link.closed else s.discardFrame w .short w.tag
  | .read t => s.endRead t

/-! ## The meanings -/

/-- WRITE_ADDRESS (R152). -/
def execWriteAddress (address : BitVec 7) (s : State) : Host.Outcome State Fault Refusal :=
  .next (s.writeAddress address)

/-- WRITE_BYTE (R153). -/
def execWriteByte (byte : Byte) (s : State) : Host.Outcome State Fault Refusal :=
  .next (s.writeByte byte)

/-- TRANSACTION_END (R157): a STOP and a repeated START have the same effect. -/
def execTransactionEnd (_kind : EndKind) (s : State) : Host.Outcome State Fault Refusal :=
  .next s.transactionEnd

/-- READ_ADDRESS (R156). -/
def execReadAddress (address : BitVec 7) (s : State) : Host.Outcome State Fault Refusal :=
  .next (s.readAddress address)

/-- HEAD_RETIRE (R143). -/
def execHeadRetire (s : State) : Host.Outcome State Fault Refusal :=
  .next s.headRetire

/-- BUS_TIMEOUT (R158). -/
def execBusTimeout (s : State) : Host.Outcome State Fault Refusal :=
  .next s.busTimeout

/-- FLAGS_BYTE_START (R141). -/
def execFlagsByteStart (s : State) : Host.Outcome State Fault Refusal :=
  .next s.flagsByteStart

end Sys2Proof.Machine
end

