-- ==== Sys2Proof/Machine/Bus.lean ====
section
/-! DEFINITION. The bus at its two lines (R150): START and STOP conditions, the bits of each byte, the
direction bit, what the port drives on SDA, and the commands of the table that the lines spell. -/

namespace Sys2Proof.Machine

/-! ## Bits and bytes (R150) -/

/-- The byte that eight bits spell, most significant bit first. -/
def byteOfBits (bits : List Bool) : Byte :=
  bits.foldl (fun r b => (r <<< 1) ||| (if b then 1 else 0)) 0

/-- The command that an address byte spells: the seven bits of the target address, then the direction
bit, 0 for write and 1 for read. -/
def addressCommand (b : Byte) : Instr :=
  if b.getLsbD 0 then .readAddress (b.extractLsb' 1 7) else .writeAddress (b.extractLsb' 1 7)

/-! ## The port's part on the bus -/

/-- The port takes no part on the bus until the next START; the lines stand as they do (R151, R158,
R159). -/
def Bus.letGo (b : Bus) : Bus := { b with started := false, role := .off, bits := [] }

/-- Replace the port's state at the lines. -/
def State.withBus (s : State) (b : Bus) : State := { s with bus := b }

/-- What the port does with the byte on the bus: a transaction that has ended under it, by the bus
timeout, leaves it no part until the next START (R158). -/
def State.busRole (s : State) : BusRole :=
  match s.bus.role, s.link.transaction with
  | .off, _ => .off
  | .address, _ => .address
  | .receiving, .write _ => .receiving
  | .receiving, .none => .off
  | .receiving, .read _ => .off
  | .sending i, .read _ => .sending i
  | .sending _, .none => .off
  | .sending _, .write _ => .off

/-- The acknowledge bit of the byte is on the bus: from the fall of SCL after the eighth bit to the fall
after the ninth. -/
def Bus.inAck (b : Bus) : Bool :=
  if b.scl then decide (b.bits.length = 9) else decide (b.bits.length = 8)

/-- The place in the byte of the data bit on the bus, counted from 0: SDA changes while SCL is low, so
with SCL high it is the bit sampled last. -/
def Bus.place (b : Bus) : Nat := if b.scl then b.bits.length - 1 else b.bits.length

/-- The port drives SDA low: in the acknowledge bit of a byte it takes, and in the bits that are 0 of a
byte it sends (R149, R150, R156). -/
def State.drivesSda (s : State) : Bool :=
  match s.busRole, s.link.transaction with
  | .off, _ => false
  | .address, .none => false
  | .address, .write _ => s.bus.inAck && s.link.ack
  | .address, .read _ => s.bus.inAck && s.link.ack
  | .receiving, _ => s.bus.inAck && s.link.ack
  | .sending i, .read t =>
    decide (s.bus.place < 8) && !(t.sentByte i).getMsbD s.bus.place
  | .sending _, .none => false
  | .sending _, .write _ => false

/-- The level of SDA: low where the host or the port pulls it low. -/
def State.sdaLevel (s : State) : Bool := s.bus.sda && !s.drivesSda

/-! ## The changes of the lines -/

/-- The lines spell commands, which run before the next change is taken. -/
def State.spell (s : State) (cs : List Instr) : State := { s with pending := cs ++ s.pending }

/-- A START condition: the next byte is an address byte. It is a repeated START where no STOP came since
the last START, and then it ends the transaction in progress (R150, R151, R157). -/
def State.startCondition (s : State) : State :=
  (s.withBus { s.bus with started := true, role := .address, bits := [] }).spell
    (if s.bus.started then [.transactionEnd .repeatedStart] else [])

/-- A STOP condition (R150, R157). -/
def State.stopCondition (s : State) : State := (s.withBus s.bus.letGo).spell [.transactionEnd .stop]

/-- SDA is released or pulled low by the host: while SCL is high a fall of the line is a START and a
rise is a STOP (R150). In reset the port ignores the bus (R186). -/
def State.sdaChange (s : State) (released : Bool) : State :=
  let t := s.withBus { s.bus with sda := released }
  if s.inReset.isSome || !s.bus.scl then t
  else
    match s.sdaLevel, t.sdaLevel with
    | true, false => t.startCondition
    | false, true => t.stopCondition
    | true, true => t
    | false, false => t

/-- What the bits sampled so far spell once the eighth is there: an address byte, a byte of a write, or
the end of the CRC byte of a read (R143, R150, R153). -/
def State.spelled (s : State) (role : BusRole) (bits : List Bool) : List Instr :=
  if bits.length = 8 then
    match role, s.link.transaction with
    | .off, _ => []
    | .address, _ => [addressCommand (byteOfBits bits)]
    | .receiving, _ => [.writeByte (byteOfBits bits)]
    | .sending i, .read t => if t.isCrc i then [.headRetire] else []
    | .sending _, .none => []
    | .sending _, .write _ => []
  else []

/-- SCL rises: the level of SDA is sampled (R150; notes/assumptions/27.md). -/
def State.sclRise (s : State) : State :=
  match s.busRole with
  | .off => s.withBus { s.bus with scl := true, role := .off, bits := [] }
  | role =>
    let bits := s.bus.bits ++ [s.sdaLevel]
    (s.withBus { s.bus with scl := true, role := role, bits := bits }).spell (s.spelled role bits)

/-- What the port does with the byte after this one: the transaction record says it (R151, R156). -/
def State.nextRole (s : State) : BusRole :=
  match s.busRole, s.link.transaction with
  | .off, _ => .off
  | .address, .none => .off
  | .address, .write _ => .receiving
  | .address, .read _ => .sending 0
  | .receiving, _ => .receiving
  | .sending i, _ => .sending (i + 1)

/-- SCL falls: after the ninth bit the next byte begins, and where it is the FLAGS byte of a read, byte 3
of the frame, its first bit goes out (R141, R150, R162). -/
def State.sclFall (s : State) : State :=
  if s.bus.bits.length = 9 then
    (s.withBus { s.bus with scl := false, role := s.nextRole, bits := [] }).spell
      (if s.nextRole = .sending 3 then [.flagsByteStart] else [])
  else s.withBus { s.bus with scl := false }

/-- An edge of SCL: during a transaction it starts the bus timeout again (R158). In reset the port
ignores the bus (R186). -/
def State.sclChange (s : State) (high : Bool) : State :=
  if s.bus.scl = high then s
  else if s.inReset.isSome then s.withBus { s.bus with scl := high }
  else
    let t := if s.link.transaction = .none then s else s.withLink s.link.edge
    if high then t.sclRise else t.sclFall

/-- A change at the lines is taken. -/
def State.takeLine (s : State) : LineChange → State
  | .scl high => s.sclChange high
  | .sda released => s.sdaChange released

/-- With no command waiting, the port takes the next change at the lines, and where none waits one 1 ms
tick passes (notes/assumptions/3.md, 27.md). -/
def State.idle (s : State) : State :=
  match s.lines with
  | [] => s.tick
  | x :: rest => ({ s with lines := rest } : State).takeLine x

end Sys2Proof.Machine
end

