-- ==== Sys2Proof/Machine/Operands.lean ====
section
/-! DEFINITION. The operands of the requests: the layouts of their payloads (chapter 9, request
payloads), with the length check (R167, step 2) and the range check (R163, R166 step 3) of each. A
range that is judged against a channel record (MEASURE's slot index) stands in Requests.lean. -/

namespace Sys2Proof.Machine

/-! ## Fields -/

/-- The byte at a place of a payload. -/
def byteAt (p : List Byte) (i : Nat) : Nat := (p.getD i 0).toNat

/-- The two-byte field at a place of a payload, most significant byte first (R163). -/
def wordAt (p : List Byte) (i : Nat) : Nat := byteAt p i * 256 + byteAt p (i + 1)

/-- The channel a byte names, if it is in 0..23. -/
def channelOf (n : Nat) : Option ChannelNo := if h : n < 24 then some ⟨n, h⟩ else none

/-- The key a byte names, if it is in 0..15. -/
def keyOf (n : Nat) : Option KeyNo := if h : n < 16 then some ⟨n, h⟩ else none

/-- A yes/no field holds 0 or 1 (R163). -/
def isYesNo (n : Nat) : Bool := decide (n ≤ 1)

/-- A value lies in a range. -/
def inRange (lo hi n : Nat) : Bool := decide (lo ≤ n) && decide (n ≤ hi)

/-- The channels that bytes name, if each is in 0..23. -/
def channelList : List Byte → Option (List ChannelNo)
  | [] => some []
  | b :: rest =>
    match channelOf b.toNat, channelList rest with
    | some c, some cs => some (c :: cs)
    | _, _ => none

/-! ## Requests with an empty payload, or of one byte -/

/-- An empty payload (R167). -/
def parseEmpty (p : List Byte) : Except Status Unit :=
  if p.length = 0 then .ok () else .error .badLen

/-- A payload that is one channel number (GET_CHANNEL). -/
def parseChannel (p : List Byte) : Except Status ChannelNo :=
  if p.length = 1 then
    match channelOf (byteAt p 0) with
    | some c => .ok c
    | none => .error .range
  else .error .badLen

/-- A payload that is one key number (CLEAR_KEY, GET_KEY). -/
def parseKey (p : List Byte) : Except Status KeyNo :=
  if p.length = 1 then
    match keyOf (byteAt p 0) with
    | some k => .ok k
    | none => .error .range
  else .error .badLen

/-- A payload that is one byte in which every value is in range (SET_EVENTS, CANCEL). -/
def parseByte (p : List Byte) : Except Status Byte :=
  if p.length = 1 then .ok (p.getD 0 0) else .error .badLen

/-- The mode a target byte names; SERVICE cannot be named (R178). -/
def targetOf : Nat → Option Mode
  | 0 => some .stopped
  | 2 => some .active
  | 3 => some .doze
  | _ => none

/-- SET_MODE: the target mode (R178). -/
def parseTarget (p : List Byte) : Except Status Mode :=
  if p.length = 1 then
    match targetOf (byteAt p 0) with
    | some m => .ok m
    | none => .error .range
  else .error .badLen

/-! ## SET_CHANNEL (R20, R172) -/

/-- The hop steps at the positions below the hop-list length; the others are ignored (R163). -/
def hopsAt (p : List Byte) : List Nat := (List.range (byteAt p 2)).map fun i => byteAt p (3 + i)

/-- The configuration block that follows the channel number, field by field. -/
def configAt (p : List Byte) : ChannelConfig :=
  { enabled := byteAt p 1 == 1
    hopList := hopsAt p
    windowMode := if byteAt p 7 = 1 then .auto else .fixed
    windowCode := byteAt p 8
    target := wordAt p 9
    tolerance := wordAt p 11
    touchThreshold := wordAt p 13
    hysteresis := wordAt p 15
    pressDebounce := byteAt p 17
    releaseDebounce := byteAt p 18
    filterDepth := byteAt p 19
    noiseLimit := wordAt p 20
    noiseRun := byteAt p 22
    driftInterval := byteAt p 23
    negThreshold := wordAt p 24
    negRun := byteAt p 26
    maxOnTime := byteAt p 27
    autocal := byteAt p 28 == 1 }

/-- Every field lies in its range, and the hysteresis is below the touch threshold (R20). -/
def ChannelConfig.valid (g : ChannelConfig) : Bool :=
  inRange 1 4 g.hopList.length && (g.hopList.all fun h => decide (h ≤ 7))
    && inRange 1 64 g.windowCode && inRange 256 15000 g.target && inRange 16 4000 g.tolerance
    && inRange 1 2047 g.touchThreshold && decide (g.hysteresis < g.touchThreshold)
    && inRange 1 8 g.pressDebounce && inRange 1 8 g.releaseDebounce && decide (g.filterDepth ≤ 3)
    && inRange 1 4095 g.noiseLimit && inRange 1 15 g.noiseRun && decide (g.driftInterval ≤ 255)
    && inRange 1 2047 g.negThreshold && inRange 1 15 g.negRun && decide (g.maxOnTime ≤ 240)

/-- The enabled, window mode and autocal bytes hold listed codes (R163, R172). -/
def configCodesListed (p : List Byte) : Bool :=
  isYesNo (byteAt p 1) && isYesNo (byteAt p 7) && isYesNo (byteAt p 28)

/-- SET_CHANNEL: the channel and its configuration (R172). -/
def parseSetChannel (p : List Byte) : Except Status (ChannelNo × ChannelConfig) :=
  if p.length = 29 then
    match channelOf (byteAt p 0) with
    | some c =>
      if configCodesListed p && (configAt p).valid then .ok (c, configAt p) else .error .range
    | none => .error .range
  else .error .badLen

/-! ## SET_KEY and SET_SCAN (R174, R176) -/

/-- The operands of SET_KEY. -/
structure SetKeyOperands where
  key : KeyNo
  kind : KeyKind
  group : Option Nat
  slideStep : Option Nat
  channels : List ChannelNo
  deriving DecidableEq, Repr

/-- The length check of SET_KEY reads the count byte (R167). -/
def setKeyLengthOk (p : List Byte) : Bool :=
  inRange 6 13 p.length && decide (p.length = 5 + byteAt p 4)

/-- The kind a byte names. -/
def keyKindOf : Nat → Option KeyKind
  | 0 => some .button
  | 1 => some .slider
  | _ => none

/-- The channel count suits the kind: 1 for a BUTTON, 2 to 8 for a SLIDER (R174). -/
def countSuits (kind : KeyKind) (n : Nat) : Bool :=
  match kind with
  | .button => decide (n = 1)
  | .slider => inRange 2 8 n

/-- The slide step of a key: none for a BUTTON, whose byte is not read, and 4 for a SLIDER whose byte
is 0 (R114, R163). -/
def slideStepOf (kind : KeyKind) (n : Nat) : Option Nat :=
  match kind with
  | .button => none
  | .slider => some (if n = 0 then 4 else n)

/-- The slide-step byte is in range: it is read for a SLIDER alone (R163, R174). -/
def slideStepOk (kind : KeyKind) (n : Nat) : Bool :=
  match kind with
  | .button => true
  | .slider => decide (n ≤ 32)

/-- SET_KEY: key, kind, group, slide step and channel list (R174). -/
def parseSetKey (p : List Byte) : Except Status SetKeyOperands :=
  if setKeyLengthOk p then
    match keyOf (byteAt p 0), keyKindOf (byteAt p 1), channelList (p.drop 5) with
    | some k, some kind, some cs =>
      if decide (byteAt p 2 ≤ 4) && slideStepOk kind (byteAt p 3) && countSuits kind cs.length then
        .ok
          { key := k, kind := kind, group := if byteAt p 2 = 0 then none else some (byteAt p 2),
            slideStep := slideStepOf kind (byteAt p 3), channels := cs }
      else .error .range
    | _, _, _ => .error .range
  else .error .badLen

/-- The entries of a SET_SCAN: pairs of a channel and a doze-member flag. -/
def scanEntryList : List Byte → Option (List ScanEntry)
  | [] => some []
  | [_] => none
  | b :: flag :: rest =>
    match channelOf b.toNat, scanEntryList rest with
    | some c, some es =>
      if isYesNo flag.toNat then some ({ channel := c, doze := flag.toNat == 1 } :: es) else none
    | _, _ => none

/-- The length check of SET_SCAN reads the count byte (R167). -/
def setScanLengthOk (p : List Byte) : Bool :=
  inRange 1 59 p.length && decide (p.length = 1 + 2 * byteAt p 0)

/-- SET_SCAN: the entries of the new scan list (R176). -/
def parseSetScan (p : List Byte) : Except Status (List ScanEntry) :=
  if setScanLengthOk p then
    match scanEntryList (p.drop 1) with
    | some es => if byteAt p 0 ≤ 24 then .ok es else .error .range
    | none => .error .range
  else .error .badLen

/-! ## SET_TIMING (R177) -/

/-- The operands of SET_TIMING. -/
structure TimingOperands where
  activePeriod : Nat
  dozePeriod : Nat
  idleTime : Nat
  deriving DecidableEq, Repr

/-- SET_TIMING: active period, doze period and idle time (R112, R177). -/
def parseSetTiming (p : List Byte) : Except Status TimingOperands :=
  if p.length = 5 then
    if inRange 5 1000 (wordAt p 0) && inRange 20 2000 (wordAt p 2) then
      .ok { activePeriod := wordAt p 0, dozePeriod := wordAt p 2, idleTime := byteAt p 4 }
    else .error .range
  else .error .badLen

/-! ## CALIBRATE and MEASURE (R179, R181) -/

/-- The length check of CALIBRATE reads the count byte (R167). -/
def calibrateLengthOk (p : List Byte) : Bool :=
  inRange 1 25 p.length && decide (p.length = 1 + byteAt p 0)

/-- CALIBRATE: the listed channels (R179). -/
def parseCalibrate (p : List Byte) : Except Status (List ChannelNo) :=
  if calibrateLengthOk p then
    match channelList (p.drop 1) with
    | some cs => .ok cs
    | none => .error .range
  else .error .badLen

/-- The operands of MEASURE. -/
structure MeasureOperands where
  channel : ChannelNo
  slot : Nat
  count : Nat
  deriving DecidableEq, Repr

/-- MEASURE: channel, slot index and sample count (R181). -/
def parseMeasure (p : List Byte) : Except Status MeasureOperands :=
  if p.length = 3 then
    match channelOf (byteAt p 0) with
    | some c =>
      if inRange 1 12 (byteAt p 2) then .ok { channel := c, slot := byteAt p 1, count := byteAt p 2 }
      else .error .range
    | none => .error .range
  else .error .badLen

/-! ## Request codes (chapter 9) -/

/-- The codes of the sixteen requests. -/
def requestCodes : List Byte :=
  [0x01, 0x02, 0x10, 0x11, 0x18, 0x19, 0x1A, 0x20, 0x21, 0x28, 0x29, 0x2A, 0x30, 0x31, 0x38, 0x3F]

end Sys2Proof.Machine
end

