-- ==== Sys2Proof/Machine/Resets.lean ====
section
/-! DEFINITION. The three kinds of reset (R184, R186, R187): the meanings of POWER_ON_RESET,
PIN_RESET and RESET_RELEASE, and the reset that RESTART performs. -/

namespace Sys2Proof.Machine

/-- Every block at its reset values (R18, R37, R81, R82, R84, R113, R130, R147, R159, R185), with
the queue, the target address, the last reset cause and the reset condition given. The levels
of the bus lines are not the part's, and the port waits for the next START (R151). The commands and the
line changes that wait and the model's own counters are kept. -/
def State.blocksReset (s : State) (queue : Queue) (address : BitVec 7) (cause : ResetCause)
    (inReset : Option ResetCause) : State :=
  { pending := s.pending
    nextJob := s.nextJob
    freeCount := s.freeCount
    queue := queue
    link := { address := address }
    bus := s.bus.letGo
    lines := s.lines
    lastCause := cause
    inReset := inReset }

/-- The target address that the straps select: 0b11001, ADR1, ADR0 (R149). -/
def strapAddress (adr1 adr0 : Bool) : BitVec 7 :=
  0b1100100#7 ||| (if adr1 then 2 else 0) ||| (if adr0 then 1 else 0)

/-- The queue while a reset from the pins is in progress: emptied, with READY not yet placed, so that
ATN is released (R145, R146). -/
def Queue.inReset : Queue := { entries := [], nextSeq := 0 }

/-- A reset from the pins is in progress: no burst runs, the bus is ignored and ATN is released
(R186). The blocks already stand at their reset values, which nothing can observe before the
release (notes/assumptions/9.md). -/
def State.enterReset (s : State) (cause : ResetCause) : State :=
  s.blocksReset Queue.inReset s.link.address s.lastCause (some cause)

/-- The cause of a reset from the pins that a pin reset joins: POWER if a power-on took part (R186). -/
def joinPinReset : Option ResetCause → ResetCause
  | some .power => .power
  | some .pin => .pin
  | some .restart => .pin
  | none => .pin

/-- RESET_RELEASE: every block takes its reset values, the straps are sampled, the last reset cause
is set, and READY is placed (R147, R186, R187). Out of reset there is nothing to release. -/
def State.resetRelease (s : State) (adr1 adr0 : Bool) : State :=
  match s.inReset with
  | some cause =>
    s.blocksReset (Queue.afterReset cause none) (strapAddress adr1 adr0) cause none
  | none => s

/-- The reset of a RESTART request: the address is kept, and READY carries the request's tag (R149,
R184). -/
def State.restarted (s : State) (tag : Byte) : State :=
  s.blocksReset (Queue.afterReset .restart (some tag)) s.link.address .restart none

/-- POWER_ON_RESET (R186). -/
def execPowerOnReset (s : State) : Host.Outcome State Fault Refusal :=
  .next (s.enterReset .power)

/-- PIN_RESET (R186). -/
def execPinReset (s : State) : Host.Outcome State Fault Refusal :=
  .next (s.enterReset (joinPinReset s.inReset))

/-- RESET_RELEASE (R186, R187). -/
def execResetRelease (adr1 adr0 : Bool) (s : State) : Host.Outcome State Fault Refusal :=
  .next (s.resetRelease adr1 adr0)

end Sys2Proof.Machine
end

