-- ==== Sys2Proof/Machine/ChannelTable.lean ====
section
/-! DEFINITION. The channel record (chapter 2): its slots, the filter and delta, and what a
SET_CHANNEL does to it. -/

namespace Sys2Proof.Machine

/-! ## Slots (R21, R22) -/

/-- A slot record keeps its step and loses its baseline and filtered value, and its reseed flag is
cleared (R31, R41, R64, R74). -/
def Slot.emptied (sl : Slot) : Slot := { step := sl.step }

/-- Slot records rebuilt for a hop list (R21). -/
def buildSlots (hops : List Nat) : List Slot := hops.map fun h => { step := h }

/-- The channel's baselines and filtered values are discarded (R22), and with them the last delta
(R26). -/
def Channel.discardBaselines (ch : Channel) : Channel :=
  { ch with slots := ch.slots.map Slot.emptied, lastDelta := none }

/-- Change the slot record at an index. -/
def Channel.modifySlot (ch : Channel) (i : Nat) (f : Slot → Slot) : Channel :=
  { ch with slots := ch.slots.modify i f }

/-- Set the reseed flag of every slot (R61). -/
def Channel.setReseeds (ch : Channel) : Channel :=
  { ch with slots := ch.slots.map fun sl => { sl with reseed := true } }

/-! ## Filter and delta (R28, R29) -/

/-- The filtered value after a CLEAN sample, the quotient rounded toward minus infinity (R28). -/
def Slot.nextFiltered (sl : Slot) (k raw : Nat) : Nat :=
  match sl.filtered with
  | some f => if sl.reseed then 16 * raw else ((f : Int) + ((16 * raw : Nat) - (f : Int)) / 2 ^ k).toNat
  | none => 16 * raw

/-- The filter update at a slot (R28). -/
def Channel.filterUpdate (ch : Channel) (i raw : Nat) : Channel :=
  ch.modifySlot i fun sl =>
    { sl with filtered := some (sl.nextFiltered ch.config.filterDepth raw), reseed := false }

/-- The delta of a baseline and a filtered value: a sixteenth of the difference, rounded toward zero
and clipped (R29). -/
def deltaOf (baseline filtered : Nat) : Int :=
  max (-2048) (min 2047 (Int.tdiv ((baseline : Int) - filtered) 16))

/-- The delta at a slot that holds a baseline and a filtered value (R29). -/
def Channel.deltaAt (ch : Channel) (i : Nat) : Option Int :=
  match ch.slots[i]? with
  | some sl =>
    match sl.baseline, sl.filtered with
    | some b, some f => some (deltaOf b f)
    | _, _ => none
  | none => none

/-! ## Release note (R27) -/

/-- A setting of the release note to RECONFIG leaves TIMEOUT (R27). -/
def ReleaseNote.toReconfig : ReleaseNote → ReleaseNote
  | .timeout => .timeout
  | .none => .reconfig
  | .reconfig => .reconfig

/-- The release note after an event that ends a touch by reconfiguration (R27, R31, R64). -/
def Channel.noteReconfig (ch : Channel) : Channel :=
  { ch with note := if ch.state.isTouch then ch.note.toReconfig else ch.note }

/-! ## SET_CHANNEL (R30 to R33) -/

/-- A measurement field differs (R20, R30). -/
def ChannelConfig.measurementDiffers (g h : ChannelConfig) : Bool :=
  g.hopList != h.hopList || g.windowMode != h.windowMode || g.windowCode != h.windowCode
    || g.target != h.target || g.tolerance != h.tolerance

/-- The slot records after a measurement change or a disable: rebuilt if the hop list differs, and
emptied if it does not (R31). -/
def Channel.slotsFor (ch : Channel) (g : ChannelConfig) : List Slot :=
  if g.hopList = ch.config.hopList then ch.slots.map Slot.emptied else buildSlots g.hopList

/-- A SET_CHANNEL that changes a measurement field or disables the channel discards the learned
state (R31). -/
def Channel.reconfigure (ch : Channel) (g : ChannelConfig) : Channel :=
  { ch.noteReconfig with
    config := g
    slots := ch.slotsFor g
    state := if g.enabled then .uncal else .off
    generation := ch.generation + 1
    current := 0
    debounce := 0
    noisyRun := 0
    noiseOn := false
    faultRun := 0
    goodRun := 0
    driftCount := 0
    negRun := 0
    maxOn := none
    lastDelta := none }

/-- The effect of a SET_CHANNEL on the record, chosen by comparing its configuration with the one
held (R30): R31, R32, or the new fields stored and all else kept (R33). -/
def Channel.configure (ch : Channel) (g : ChannelConfig) : Channel :=
  if g.measurementDiffers ch.config || (ch.config.enabled && !g.enabled) then ch.reconfigure g
  else if !ch.config.enabled && g.enabled then { ch with config := g, state := .uncal }
  else { ch with config := g }

end Sys2Proof.Machine
end

