-- ==== Sys2Proof/Machine/Detection.lean ====
section
/-! DEFINITION. Touch detection and baseline tracking (chapter 3): what a sample, the max-on expiry
and the stop do to one channel record, and the events they raise. -/

namespace Sys2Proof.Machine

/-- What a claim on a channel record comes to: the record after it, the events it posts in order,
whether it entered PRESSING or TOUCHED (R53), and whether it left FAULT (R44). -/
structure SampleEffect where
  channel : Channel
  events : List Body := []
  wake : Bool := false
  faultExit : Bool := false

/-! ## Electrode faults (R40 to R44) -/

/-- The condition of a FAULT event raised by a sample of a kind (R42). -/
def FaultKind.condition : FaultKind → FaultCondition
  | .short => .short
  | .overrange => .overrange

/-- The channel enters FAULT (R41). -/
def Channel.enterFault (ch : Channel) : Channel :=
  { ch.discardBaselines with
    state := .fault
    generation := ch.generation + 1
    debounce := 0
    noisyRun := 0
    noiseOn := false
    faultRun := 0
    goodRun := 0
    driftCount := 0
    negRun := 0
    maxOn := none }

/-- A FAULT sample in a detecting state (R40, R41). -/
def Channel.faultSample (ch : Channel) (c : ChannelNo) (kind : FaultKind) : SampleEffect :=
  if ch.faultRun + 1 < 3 then { channel := { ch with faultRun := ch.faultRun + 1 } }
  else { channel := ch.enterFault, events := [.fault c kind.condition] }

/-- A sample in FAULT (R43, R44): the good run, and FAULT exit at the eighth non-fault sample. -/
def Channel.sampleInFault (ch : Channel) (c : ChannelNo) (cls : SampleClass) : SampleEffect :=
  match cls with
  | .fault _ => { channel := { ch with goodRun := 0 } }
  | .noisy | .clean =>
    if ch.goodRun + 1 < 8 then { channel := { ch with goodRun := ch.goodRun + 1 } }
    else
      { channel := { ch with goodRun := 0, state := .uncal }
        events := [.fault c .clear]
        faultExit := true }

/-! ## Noise (R46 to R49) -/

/-- The hop advance from the slot of the sample (R47). -/
def Channel.hop (ch : Channel) (i : Nat) : Channel :=
  if 1 < ch.config.hopList.length then
    let next := (i + 1) % ch.config.hopList.length
    { ch.modifySlot next fun sl => { sl with reseed := true } with current := next }
  else ch

/-- A NOISY sample in a detecting state: the runs (R46), the hop advance (R47) and the noise
condition (R48). -/
def Channel.noisySample (ch : Channel) (c : ChannelNo) (i : Nat) : SampleEffect :=
  let run := min 15 (ch.noisyRun + 1)
  let hopped := { ch with faultRun := 0, noisyRun := run }.hop i
  if !ch.noiseOn && decide (ch.config.noiseRun ≤ run) then
    { channel := { hopped with noiseOn := true }, events := [.noise c true i] }
  else { channel := hopped }

/-! ## The detection state machine (R51 to R54) -/

/-- Entry into TOUCHED from IDLE or PRESSING, with the max-on timer started (R54). -/
def Channel.touch (ch : Channel) : Channel :=
  { ch with state := .touched, debounce := 0, maxOn := startTimer (ch.config.maxOnTime * 250) }

/-- Entry into IDLE, with the debounce count 0 and the max-on timer stopped (R51, R54). -/
def Channel.toIdle (ch : Channel) : Channel :=
  { ch with state := .idle, debounce := 0, maxOn := none }

/-- The transition of the detection state on a delta (R51). -/
def Channel.judge (ch : Channel) (d : Int) : Channel :=
  let tt : Int := ch.config.touchThreshold
  let release : Int := tt - ch.config.hysteresis
  match ch.state with
  | .idle =>
    if tt ≤ d then
      if 1 < ch.config.pressDebounce then
        { ch with state := .pressing, debounce := 1, maxOn := none }
      else ch.touch
    else ch.toIdle
  | .pressing =>
    if tt ≤ d then
      if ch.debounce + 1 < ch.config.pressDebounce then
        { ch with debounce := ch.debounce + 1, maxOn := none }
      else ch.touch
    else ch.toIdle
  | .touched =>
    if release ≤ d then { ch with debounce := 0 }
    else if 1 < ch.config.releaseDebounce then { ch with state := .releasing, debounce := 1 }
    else ch.toIdle
  | .releasing =>
    if release ≤ d then { ch with state := .touched, debounce := 0 }
    else if ch.debounce + 1 < ch.config.releaseDebounce then
      { ch with debounce := ch.debounce + 1 }
    else ch.toIdle
  | .off | .uncal | .calibrating | .fault => ch

/-! ## Baseline tracking (R55 to R58) -/

/-- The top of a baseline and of a filtered value, 16 times the largest raw value (R21). -/
def sixteenthsTop : Nat := 262128

/-- A baseline shifted by a difference, held within 0..262128 (R56). -/
def shiftBaseline (b : Nat) (diff : Int) : Nat := (min (sixteenthsTop : Int) (b + diff)).toNat

/-- A re-baseline at the current slot, which moves every slot's baseline by the difference that
brings the current slot's to its filtered value (R56). -/
def Channel.rebaseline (ch : Channel) : Channel :=
  match ch.slots[ch.current]? with
  | some sl =>
    match sl.baseline, sl.filtered with
    | some b, some f =>
      { ch with
        slots := ch.slots.map fun x =>
          { x with baseline := x.baseline.map fun b' => shiftBaseline b' ((f : Int) - b) }
        driftCount := 0
        negRun := 0 }
    | _, _ => { ch with driftCount := 0, negRun := 0 }
  | none => { ch with driftCount := 0, negRun := 0 }

/-- A baseline moved 16 sixteenths toward the filtered value, or to it when it is nearer (R57). -/
def driftBaseline (b f : Nat) : Nat :=
  if b + 16 ≤ f then b + 16 else if f + 16 ≤ b then b - 16 else f

/-- A drift step at the current slot (R57). -/
def Channel.driftStep (ch : Channel) : Channel :=
  ch.modifySlot ch.current fun sl =>
    match sl.baseline, sl.filtered with
    | some b, some f => { sl with baseline := some (driftBaseline b f) }
    | _, _ => sl

/-- The drift counter for a clean sample that stays in IDLE (R57). -/
def Channel.drift (ch : Channel) : Channel :=
  if ch.config.driftInterval = 0 then ch
  else if ch.config.driftInterval ≤ ch.driftCount + 1 then { ch.driftStep with driftCount := 0 }
  else { ch with driftCount := ch.driftCount + 1 }

/-- The negative run for a clean sample that stays in IDLE, with the NEGATIVE re-baseline (R58). -/
def Channel.negative (ch : Channel) (c : ChannelNo) (d : Int) : Channel × List Body :=
  let run := if d ≤ -(ch.config.negThreshold : Int) then ch.negRun + 1 else 0
  let ch' := { ch with negRun := run }
  if ch.config.negRun ≤ run then (ch'.rebaseline, [.recal c .negative]) else (ch', [])

/-! ## The scan sample (R38, R39) -/

/-- A clean sample turns the noise condition off, with a NOISE event if it was on (R49). -/
def Channel.noiseOff (ch : Channel) (c : ChannelNo) (i : Nat) : Channel × List Body :=
  ({ ch with faultRun := 0, noisyRun := 0, noiseOn := false },
    if ch.noiseOn then [.noise c false i] else [])

/-- The baseline tracking that follows the state transition: of a sample judged in IDLE alone (R55). -/
def Channel.track (ch : Channel) (was : ChannelState) (c : ChannelNo) (d : Int) :
    Channel × List Body :=
  if was = .idle then
    if ch.state = .idle then ch.drift.negative c d else ({ ch with negRun := 0 }, [])
  else (ch, [])

/-- The transition is an entry into PRESSING or TOUCHED (R53). -/
def entersTouch (was now : ChannelState) : Bool :=
  was != now && (now == .pressing || now == .touched)

/-- A CLEAN sample in a detecting state: R49, the filter and delta (R28, R29), the state transition
(R51) and the baseline tracking (R55). The slot of a detecting channel holds a baseline (R22); for
a record that breaks R22, which no run reaches, the sample goes no further than the filter
(notes/assumptions/22.md). -/
def Channel.cleanSample (ch : Channel) (c : ChannelNo) (i raw : Nat) : SampleEffect :=
  let off := ch.noiseOff c i
  let filtered := off.1.filterUpdate i raw
  match filtered.deltaAt i with
  | none => { channel := filtered, events := off.2 }
  | some d =>
    let judged := { filtered with lastDelta := some d }.judge d
    let tracked := judged.track ch.state c d
    { channel := tracked.1, events := off.2 ++ tracked.2, wake := entersTouch ch.state judged.state }

/-- A SCAN sample whose generation has passed its check is applied or discarded by the channel's
state (R38), and handled by its class (R39). -/
def Channel.scanSample (ch : Channel) (c : ChannelNo) (x : Sample) : SampleEffect :=
  let seen := { ch with lastRaw := x.raw, lastNoise := x.noise }
  if ch.state.isDetecting then
    match x.cls with
    | .fault kind => seen.faultSample c kind
    | .noisy => seen.noisySample c x.slot
    | .clean => seen.cleanSample c x.slot x.raw
  else if ch.state = .fault then seen.sampleInFault c x.cls
  else { channel := ch }

/-! ## Max-on expiry and stop (R59, R62) -/

/-- The max-on expiry at the record (R59). -/
def Channel.maxOnExpire (ch : Channel) : Channel :=
  { ch.rebaseline with state := .idle, debounce := 0, maxOn := none, note := .timeout }

/-- The stop at the record (R62). -/
def Channel.stop (ch : Channel) : Channel := if ch.state.isTouch then ch.toIdle else ch

end Sys2Proof.Machine
end

