-- ==== Sys2Proof/Machine/Calibration.lean ====
section
/-! DEFINITION. The calibration unit (chapter 4): the creation of a job, the step a job takes on an
accepted sample, its end, and the delivery of its result. -/

namespace Sys2Proof.Machine

/-! ## Creation (R64, R67) -/

/-- The channel's entry into CALIBRATING (R64). -/
def Channel.enterCalibration (ch : Channel) : Channel :=
  { ch.noteReconfig.discardBaselines with
    state := .calibrating
    generation := ch.generation + 1
    debounce := 0
    goodRun := 0
    maxOn := none }

/-- The first phase of a job, by the window mode (R67). -/
def firstPhase : WindowMode → JobPhase
  | .auto => .search
  | .fixed => .acquire

/-- The creation of a job (R64). Its signal to the scheduler is `State.workSignal`. -/
def State.createJob (s : State) (c : ChannelNo) (origin : JobOrigin) : State :=
  { (s.setChan c (s.chan c).enterCalibration).setJob c
      (some
        { serial := s.nextJob, origin := origin,
          phase := firstPhase (s.chan c).config.windowMode }) with
    nextJob := s.nextJob + 1 }

/-! ## The accepted sample (R69 to R73) -/

/-- What an accepted sample does to a job: it goes on, or it ends with an outcome; and the channel
record after the claim, with any event the record posts. -/
inductive JobStep where
  | goesOn (job : Job) (channel : Channel)
  | ends (outcome : CalOutcome) (channel : Channel) (events : List Body)

/-- The present mid of the search (R63). -/
def Job.mid (j : Job) : Nat := (j.lo + j.hi) / 2

/-- The channel as a job that failed without FAULT leaves it (R74, R79). -/
def Channel.calibrationFails (ch : Channel) : Channel :=
  { ch.discardBaselines with
    state := .uncal, noisyRun := 0, faultRun := 0, driftCount := 0, negRun := 0 }

/-- The channel as a successful job leaves it (R76). -/
def Channel.calibrationSucceeds (ch : Channel) : Channel :=
  { ch with
    slots := ch.slots.map fun sl => { sl with reseed := false }
    state := .idle
    current := 0
    debounce := 0
    noisyRun := 0
    faultRun := 0
    goodRun := 0
    driftCount := 0
    negRun := 0
    maxOn := none
    lastDelta := none }

/-- The outcome of a success, judged from the mean raw value of slot 0 (R76). -/
def ChannelConfig.successOutcome (g : ChannelConfig) (avg : Nat) : CalOutcome :=
  if avg + g.tolerance < g.target then .low
  else if g.target + g.tolerance < avg then .high
  else .ok

/-- The mean raw value of slot 0, rounded down (R76). -/
def Channel.slotZeroMean (ch : Channel) : Nat :=
  match ch.slots[0]? with
  | some sl => sl.baseline.getD 0 / 16
  | none => 0

/-- A CLEAN sample in SEARCH narrows lo and hi (R70), and ends the search when they meet (R72). -/
def Job.searchClean (j : Job) (ch : Channel) (raw : Nat) : JobStep :=
  let lo := if raw < ch.config.target then j.mid + 1 else j.lo
  let hi := if raw < ch.config.target then j.hi else j.mid
  if lo = hi then
    .goesOn
      { j with
        phase := .acquire, lo := lo, hi := hi, acquireSlot := 0, cleanCount := 0, sum := 0,
        noisyCount := 0 }
      { ch with config := { ch.config with windowCode := lo } }
  else .goesOn { j with lo := lo, hi := hi } ch

/-- A slot filled from the sum of eight raw values (R73). -/
def Slot.filledFrom (sl : Slot) (sum : Nat) : Slot :=
  { sl with baseline := some (2 * sum), filtered := some (2 * sum), reseed := false }

/-- A CLEAN sample in ACQUIRE joins the sum; the eighth fills the slot, and the last slot filled is
the job's success (R73, R76). -/
def Job.acquireClean (j : Job) (ch : Channel) (raw : Nat) : JobStep :=
  let sum := j.sum + raw
  if j.cleanCount + 1 < 8 then .goesOn { j with sum := sum, cleanCount := j.cleanCount + 1 } ch
  else
    let filled := ch.modifySlot j.acquireSlot fun sl => sl.filledFrom sum
    if j.acquireSlot + 1 < ch.config.hopList.length then
      .goesOn
        { j with acquireSlot := j.acquireSlot + 1, cleanCount := 0, sum := 0, noisyCount := 0 }
        filled
    else
      .ends (ch.config.successOutcome filled.slotZeroMean) filled.calibrationSucceeds []

/-- A NOISY sample counts toward the outcome NOISE (R71, R73, R74). -/
def Job.noisy (j : Job) (ch : Channel) : JobStep :=
  if j.noisyCount + 1 < 16 then .goesOn { j with noisyCount := j.noisyCount + 1 } ch
  else .ends .noise ch.calibrationFails []

/-- An accepted sample moves the job one step (R69). -/
def Job.accept (j : Job) (c : ChannelNo) (ch : Channel) (x : Sample) : JobStep :=
  match x.cls with
  | .fault kind =>
    if j.faultRun + 1 < 3 then .goesOn { j with faultRun := j.faultRun + 1 } ch
    else .ends .fault ch.enterFault [.fault c kind.condition]
  | .noisy => { j with faultRun := 0 }.noisy ch
  | .clean =>
    match j.phase with
    | .search => { j with faultRun := 0 }.searchClean ch x.raw
    | .acquire => { j with faultRun := 0 }.acquireClean ch x.raw

/-! ## Results (R77, R78) -/

/-- A result is appended to the CALIBRATE entry with a tag (R77). -/
def State.appendResult (s : State) (tag : Byte) (r : CalResult) : State :=
  match s.entryOfTag tag with
  | some e =>
    match e.work with
    | .calibrate subjects results =>
      let e' := { e with work := .calibrate subjects (results ++ [r]) }
      { s with table := s.table.replace e e' }
    | .measure _ _ _ _ => s
  | none => s

/-- An ended job hands its result to its origin: to its CALIBRATE entry (R77), or to the host in a
RECAL event (R78). -/
def State.handResult (s : State) (c : ChannelNo) (j : Job) : State :=
  match j.outcome with
  | none => s
  | some o =>
    match j.origin with
    | .request tag => s.appendResult tag ⟨c, o, (s.chan c).config.windowCode⟩
    | .automatic => s.post (.recal c (.autoCal o (s.chan c).config.windowCode))

/-- Every subject channel of the work has a result (R77). -/
def LongWork.hasAllResults : LongWork → Bool
  | .calibrate subjects results => subjects.all fun c => results.any fun r => r.channel == c
  | .measure _ _ count results => decide (count ≤ results.length)

/-- DONE if every outcome is a success, PARTIAL otherwise (R77); a MEASURE ends DONE (R15). -/
def LongWork.finalStatus : LongWork → Status
  | .calibrate _ results =>
    if results.all fun r => r.outcome.isSuccess then .done else .partialDone
  | .measure _ _ _ _ => .done

/-- The entry that an ended job's result went to completes if it now holds every result, with the
status given, or with the one its results give (R77, R80). -/
def State.closeEntryOf (s : State) (origin : JobOrigin) (status : Option Status) : State :=
  match origin with
  | .automatic => s
  | .request tag =>
    match s.entryOfTag tag with
    | some e =>
      if e.work.hasAllResults then s.completeEntry e (status.getD e.work.finalStatus) else s
    | none => s

/-- A job ends with an outcome: the channel record takes its new value, the job leaves the set, the
record's events are posted, and the result goes to the origin (R74 to R78). -/
def State.endJob (s : State) (c : ChannelNo) (j : Job) (o : CalOutcome) (ch : Channel)
    (events : List Body) : State :=
  (((s.setChan c ch).setJob c none).postAll events).handResult c { j with outcome := some o }

/-- A CAL sample delivered to the calibration unit (R14): accepted while the generation matches and
the job named in the record is still the channel's, and discarded otherwise. -/
def State.deliverCal (s : State) (r : BurstRecord) (serial : Nat) (x : Sample) : State :=
  match s.job r.channel with
  | some j =>
    if r.generation = (s.chan r.channel).generation ∧ j.serial = serial then
      match j.accept r.channel (s.chan r.channel) x with
      | .goesOn j' ch => (s.setChan r.channel ch).setJob r.channel (some j')
      | .ends o ch events => (s.endJob r.channel j o ch events).closeEntryOf j.origin none
    else s
  | none => s

/-! ## Jobs ended from outside (R79, R80) -/

/-- The job of a channel, if any, ends ABORTED. -/
def State.abortJob (s : State) (c : ChannelNo) : State :=
  match s.job c with
  | some j => s.endJob c j .aborted (s.chan c).calibrationFails []
  | none => s

/-- The channels whose job came from a request with a tag. -/
def State.jobsOfTag (s : State) (tag : Byte) : List ChannelNo :=
  allChannels.filter fun c =>
    match s.job c with
    | some j => j.origin == .request tag
    | none => false

/-- A CANCEL ends every job of a CALIBRATE entry, in ascending channel order (R79). -/
def State.abortJobsOfTag (s : State) (tag : Byte) : State :=
  (s.jobsOfTag tag).foldl State.abortJob s

/-- A stop ends the job of a channel, and the CALIBRATE entry whose last job it was completes
ABORTED (R80). -/
def State.stopJob (s : State) (c : ChannelNo) : State :=
  match s.job c with
  | some j => (s.abortJob c).closeEntryOf j.origin (some .aborted)
  | none => s

/-- A stop ends every job, in ascending channel order (R80). -/
def State.stopJobs (s : State) : State := allChannels.foldl State.stopJob s

end Sys2Proof.Machine
end

