-- ==== Sys2Proof/Machine/KeyEvaluator.lean ====
section
/-! DEFINITION. The key evaluator (chapter 7): candidates, strengths, suppression groups, slider
positions, and the evaluation at the end of an ACTIVE or DOZE cycle. -/

namespace Sys2Proof.Machine

/-- What the evaluation copies from a channel record; an absent last delta is taken as 0 (R116). -/
structure ChannelCopy where
  state : ChannelState
  delta : Int
  note : ReleaseNote

/-- The copy of a channel record. -/
def Channel.copy (ch : Channel) : ChannelCopy := ⟨ch.state, ch.lastDelta.getD 0, ch.note⟩

/-! ## Judging one key (R117, R118, R121, R122) -/

/-- A channel that makes its key a candidate: TOUCHED or RELEASING. -/
def ChannelState.isHeld : ChannelState → Bool
  | .touched | .releasing => true
  | .off | .uncal | .calibrating | .idle | .pressing | .fault => false

/-- A channel that disqualifies a slider: FAULT or CALIBRATING. -/
def ChannelState.disqualifies : ChannelState → Bool
  | .fault | .calibrating => true
  | .off | .uncal | .idle | .pressing | .touched | .releasing => false

/-- The key is a candidate (R117). -/
def Key.candidate (r : Key) (look : ChannelNo → ChannelCopy) : Bool :=
  match r.kind with
  | .button => r.channels.any fun c => (look c).state.isHeld
  | .slider =>
    (r.channels.any fun c => (look c).state.isHeld)
      && r.channels.all fun c => !(look c).state.disqualifies

/-- The last deltas of a key's channels, a negative one taken as 0 (R118, R122). -/
def Key.deltas (r : Key) (look : ChannelNo → ChannelCopy) : List Nat :=
  r.channels.map fun c => (look c).delta.toNat

/-- The strength of a key: the largest positive last delta among its channels, or 0 (R118). -/
def Key.strength (r : Key) (look : ChannelNo → ChannelCopy) : Nat :=
  (r.deltas look).foldl max 0

/-- The cause of a release (R121). -/
def Key.releaseCause (r : Key) (look : ChannelNo → ChannelCopy) : ReleaseCause :=
  if r.channels.any fun c => (look c).state == .fault then .fault
  else if r.channels.any fun c => (look c).note == .timeout then .timeout
  else if r.channels.any fun c => (look c).note == .reconfig || (look c).state == .calibrating then
    .reconfig
  else .normal

/-- The interpolated place along a row of deltas, before it is held within the row (R122). -/
def sliderPlace (ds : List Nat) : Int :=
  let i := ds.idxOf (ds.foldl max 0)
  let before : Nat := if i = 0 then 0 else ds.getD (i - 1) 0
  let here := ds.getD i 0
  let after := ds.getD (i + 1) 0
  256 * (i : Int) + Int.tdiv (256 * ((after : Int) - before)) ((before + here + after : Nat) : Int)

/-- The position of a slider from the deltas of its channels, 0..255 (R122). -/
def sliderPosition (ds : List Nat) : Nat :=
  let span := 256 * (ds.length - 1)
  let place := (max 0 (min (span : Int) (sliderPlace ds))).toNat
  place * 255 / span

/-- The position a key reports: a slider's alone. -/
def Key.position (r : Key) (look : ChannelNo → ChannelCopy) : Option Nat :=
  match r.kind with
  | .button => none
  | .slider => some (sliderPosition (r.deltas look))

/-! ## Suppression groups (R120) -/

/-- The group is held: one of its keys is PRESSED and still a candidate. -/
def groupHeld (keys : KeyNo → Option Key) (look : ChannelNo → ChannelCopy) (g : Nat) : Bool :=
  allKeys.any fun k =>
    match keys k with
    | some r => r.group == some g && r.state == .pressed && r.candidate look
    | none => false

/-- A key is the strongest candidate of its group, the lowest key number among equals. -/
def isStrongest (keys : KeyNo → Option Key) (look : ChannelNo → ChannelCopy) (g : Nat)
    (k : KeyNo) (r : Key) : Bool :=
  allKeys.all fun k' =>
    match keys k' with
    | some r' =>
      if r'.group == some g && r'.candidate look then
        decide (r'.strength look < r.strength look)
          || (decide (r'.strength look = r.strength look) && decide (k ≤ k'))
      else true
    | none => true

/-- A RELEASED candidate may be pressed: it has no group, or it wins its free group. -/
def mayPress (keys : KeyNo → Option Key) (look : ChannelNo → ChannelCopy) (k : KeyNo)
    (r : Key) : Bool :=
  match r.group with
  | none => true
  | some g => !groupHeld keys look g && isStrongest keys look g k r

/-! ## The move of one key (R119, R123) -/

/-- The distance between two positions. -/
def positionDistance (p q : Nat) : Nat := (p - q) + (q - p)

/-- A key that stays PRESSED: a slider reports a movement of the slide step or more (R123). -/
def Key.slides (r : Key) (k : KeyNo) (look : ChannelNo → ChannelCopy) : Key × Option Body :=
  match r.position look, r.lastPosition, r.slideStep with
  | some p, some q, some step =>
    if step ≤ positionDistance p q then ({ r with lastPosition := some p }, some (.slide k p))
    else (r, none)
  | _, _, _ => (r, none)

/-- The key record after the evaluation, and the event it posts, if any (R119, R120). -/
def Key.move (keys : KeyNo → Option Key) (look : ChannelNo → ChannelCopy) (k : KeyNo) (r : Key) :
    Key × Option Body :=
  match r.state, r.candidate look with
  | .released, true =>
    if mayPress keys look k r then
      ({ r with state := .pressed, lastPosition := r.position look },
        some (.press k (r.strength look) (r.position look)))
    else (r, none)
  | .released, false => (r, none)
  | .pressed, true => r.slides k look
  | .pressed, false =>
    ({ r with state := .released, lastPosition := none }, some (.release k (r.releaseCause look)))

/-! ## The evaluation (R116, R124) -/

/-- The record of a key after the evaluation. -/
def keyAfter (keys : KeyNo → Option Key) (look : ChannelNo → ChannelCopy) (k : KeyNo) :
    Option Key :=
  (keys k).map fun r => (Key.move keys look k r).1

/-- The event a key posts in the evaluation. -/
def keyEvent (keys : KeyNo → Option Key) (look : ChannelNo → ChannelCopy) (k : KeyNo) :
    Option Body :=
  (keys k).bind fun r => (Key.move keys look k r).2

/-- The body is a RELEASE. -/
def Body.isRelease : Body → Bool
  | .release _ _ => true
  | _ => false

/-- The body is a PRESS. -/
def Body.isPress : Body → Bool
  | .press _ _ _ => true
  | _ => false

/-- The body is a SLIDE. -/
def Body.isSlide : Body → Bool
  | .slide _ _ => true
  | _ => false

/-- The events of one evaluation: every RELEASE, then every PRESS, then every SLIDE, each in
ascending key order (R124). -/
def keyEvents (keys : KeyNo → Option Key) (look : ChannelNo → ChannelCopy) : List Body :=
  let all := allKeys.filterMap (keyEvent keys look)
  all.filter Body.isRelease ++ all.filter Body.isPress ++ all.filter Body.isSlide

/-- Every release note is set to NONE (R116). -/
def State.clearNotes (s : State) : State :=
  s.mapChannels fun _ ch => { ch with note := .none }

/-- Every key record is replaced at once. -/
def State.mapKeys (s : State) (f : KeyNo → Option Key) : State :=
  { s with keys := Vector.ofFn f }

/-- The key evaluation at a cycle end: every channel is read once and its note cleared (R116), every
key moves, and the events are posted (R124). -/
def State.evaluateKeys (s : State) : State :=
  let look := fun c => (s.chan c).copy
  (s.clearNotes.mapKeys (keyAfter s.key look)).postAll (keyEvents s.key look)

/-- The key is PRESSED. -/
def State.isPressed (s : State) (k : KeyNo) : Bool :=
  match s.key k with
  | some r => r.state == .pressed
  | none => false

/-- A key record released by a stop (R127). -/
def Key.stop (r : Key) : Key := { r with state := .released, lastPosition := none }

/-- The stop at the key evaluator: every PRESSED key is released with cause STOPPED, and every
slider's last reported position becomes absent (R127). -/
def State.stopKeys (s : State) : State :=
  (s.mapKeys fun k => (s.key k).map Key.stop).postAll
    ((allKeys.filter s.isPressed).map fun k => .release k .stopped)

end Sys2Proof.Machine
end

