-- ==== Sys2Proof/Machine/Scheduler.lean ====
section
/-! DEFINITION. The scheduler (chapters 5 and 6): work lists, the offer of items, the end of a cycle,
the mode and its transitions, the inactivity judgement, automatic jobs, and the stop. -/

namespace Sys2Proof.Machine

/-! ## Small updates of the scheduler -/

/-- Replace the scheduler's state. -/
def State.withSched (s : State) (f : Scheduler → Scheduler) : State := { s with sched := f s.sched }

/-- Set the period timer (R94). -/
def State.setPeriod (s : State) (t : Timer) : State := s.withSched fun d => { d with periodTimer := t }

/-- Set the inactivity timer (R108). -/
def State.setInactivity (s : State) (t : InactivityTimer) : State :=
  s.withSched fun d => { d with inactivity := t }

/-- Set the quiet note (R100). -/
def State.setQuiet (s : State) (q : Bool) : State := s.withSched fun d => { d with quiet := q }

/-- Replace the cycle record (R84). -/
def State.setCycle (s : State) (cy : Option Cycle) : State := s.withSched fun d => { d with cycle := cy }

/-- Start or restart the inactivity timer with the idle time; 0 leaves it stopped (R108). -/
def State.startInactivity (s : State) : State :=
  s.setInactivity (if s.sched.idleTime = 0 then .stopped else .running (s.sched.idleTime * 1000))

/-- A change of mode posts one MODE event (R101). -/
def State.changeMode (s : State) (m : Mode) (cause : ModeCause) : State :=
  (s.withSched fun d => { d with mode := m }).post (.mode m cause)

/-- The marks of the cycle in flight are cleared (R105). -/
def State.clearMarks (s : State) : State :=
  s.setCycle (s.sched.cycle.map fun cy => { cy with late := false, startOwed := false })

/-! ## Building the work lists (R86 to R88) -/

/-- A CAL item for the channel's job, if the channel is CALIBRATING (R86). -/
def State.calItem (s : State) (c : ChannelNo) : Option WorkItem :=
  if (s.chan c).state = .calibrating then (s.job c).map fun j => .cal c j.serial else none

/-- The item a scan-list entry receives, by the channel's state at the build (R86). -/
def State.scanItem (s : State) (c : ChannelNo) : Option WorkItem :=
  if (s.chan c).state.isScanned then some (.scan c) else s.calItem c

/-- The scan-list entries that the scan part of a cycle takes (R86, R87, R88). -/
def State.scanEntries (s : State) : CycleKind → List ScanEntry
  | .active => s.sched.scanList
  | .doze => s.sched.scanList.filter fun e => e.doze
  | .service => []

/-- The scan part of an engine's list, in scan-list order. -/
def State.scanPart (s : State) (k : CycleKind) (e : EngineId) : List WorkItem :=
  ((s.scanEntries k).filter fun en => engineOf en.channel == e).filterMap fun en =>
    s.scanItem en.channel

/-- The calibration part: the CALIBRATING channels of the engine that the scan part leaves out, in
ascending channel order. -/
def State.calPart (s : State) (k : CycleKind) (e : EngineId) : List WorkItem :=
  (allChannels.filter fun c =>
    engineOf c == e && !((s.scanEntries k).any fun en => en.channel == c)).filterMap s.calItem

/-- The measure part: the pending MEASURE entries on the engine's channels, oldest first. -/
def State.measurePart (s : State) (e : EngineId) : List WorkItem :=
  s.table.filterMap fun p =>
    match p.work.measured with
    | some c => if engineOf c = e then some (.measure c p.tag) else none
    | none => none

/-- One engine's work list for a cycle. -/
def State.buildList (s : State) (k : CycleKind) (e : EngineId) : List WorkItem :=
  s.scanPart k e ++ s.calPart k e ++ s.measurePart e

/-! ## Taking an item (R3, R4, R89, R90) -/

/-- The step held in a channel's slot record. -/
def Channel.stepAt (ch : Channel) (i : Nat) : Nat :=
  match ch.slots[i]? with
  | some sl => sl.step
  | none => 0

/-- The burst record of a dispatch, read from the channel at that moment (R3). -/
def Channel.burst (ch : Channel) (c : ChannelNo) (p : Purpose) (slot window : Nat) : BurstRecord :=
  { channel := c, purpose := p, slot := slot, step := ch.stepAt slot, window := window,
    generation := ch.generation }

/-- The burst record of a CAL item: slot 0 at the present mid in SEARCH, the acquire slot at the
channel's window code in ACQUIRE (R3). -/
def Channel.calBurst (ch : Channel) (c : ChannelNo) (j : Job) : BurstRecord :=
  match j.phase with
  | .search => ch.burst c (.cal j.serial) 0 j.mid
  | .acquire => ch.burst c (.cal j.serial) j.acquireSlot ch.config.windowCode

/-- An offered item is judged: dispatched with its burst record, or skipped (R90). -/
def State.judgeItem (s : State) : WorkItem → Option BurstRecord
  | .scan c =>
    if (s.chan c).state.isScanned then
      some ((s.chan c).burst c .scan (s.chan c).current (s.chan c).config.windowCode)
    else if (s.chan c).state = .calibrating then (s.job c).map ((s.chan c).calBurst c)
    else none
  | .cal c serial =>
    match s.job c with
    | some j => if j.serial = serial then some ((s.chan c).calBurst c j) else none
    | none => none
  | .measure c tag =>
    match s.entryOfTag tag with
    | some p =>
      match p.work with
      | .measure c' slot _ _ =>
        if c' = c then some ((s.chan c).burst c (.measure tag) slot (s.chan c).config.windowCode)
        else none
      | .calibrate _ _ => none
    | none => none

/-- Replace one engine's work list. -/
def State.setList (s : State) (e : EngineId) (l : List WorkItem) : State :=
  s.setCycle (s.sched.cycle.map fun cy => { cy with lists := cy.lists.set e l })

/-- The settle period in reference ticks (R5). -/
def settleTicks : Nat := 40

/-- A dispatch to an engine in IDLE: the record is filled and the settle period starts (R4). -/
def State.dispatch (s : State) (e : EngineId) (r : BurstRecord) : State :=
  s.setEngine e (.settle r settleTicks)

/-- The items of a list are offered in turn until one is dispatched (R89). -/
def State.offerList (s : State) (e : EngineId) : List WorkItem → State
  | [] => s.setList e []
  | item :: rest =>
    match s.judgeItem item with
    | some r => (s.setList e rest).dispatch e r
    | none => s.offerList e rest

/-- The scheduler offers an engine the front item of its list; an engine that is not IDLE refuses
it, and the item stays (R4, R89). -/
def State.offer (s : State) (e : EngineId) : State :=
  match s.sched.cycle with
  | some cy => if s.engine e = .idle then s.offerList e (cy.lists.get e) else s
  | none => s

/-! ## The start of a cycle (R85, R94) -/

/-- The kind of cycle that a mode gives (R85). -/
def Mode.cycleKind : Mode → CycleKind
  | .active => .active
  | .doze => .doze
  | .service | .stopped => .service

/-- An ACTIVE or DOZE cycle start restarts the period timer; a SERVICE cycle start leaves it (R94). -/
def Scheduler.periodAtStart (d : Scheduler) : CycleKind → Timer
  | .active => some d.activePeriod
  | .doze => some d.dozePeriod
  | .service => d.periodTimer

/-- A cycle starts: its lists are built, the period timer restarts, and each engine is offered its
first item (R85, R89). -/
def State.beginCycle (s : State) (k : CycleKind) : State :=
  let lists := ⟨s.buildList k .a, s.buildList k .b, s.buildList k .c, s.buildList k .d⟩
  let started := s.withSched fun d =>
    { d with cycle := some { kind := k, lists := lists }, periodTimer := d.periodAtStart k }
  (((started.offer .a).offer .b).offer .c).offer .d

/-! ## The end of a cycle (R91 to R93) -/

/-- The cycle in flight has ended: its lists are empty and the engines are IDLE (R91). -/
def State.cycleFinished (s : State) : Bool :=
  match s.sched.cycle with
  | some cy =>
    cy.lists.a.isEmpty && cy.lists.b.isEmpty && cy.lists.c.isEmpty && cy.lists.d.isEmpty
      && s.enginesIdle
  | none => false

/-- Nothing keeps the part awake: no channel holds a touch or is CALIBRATING, and the pending table
is empty (R108). -/
def State.quietNow (s : State) : Bool :=
  (allChannels.all fun c =>
    !(s.chan c).state.isTouch && (s.chan c).state != .calibrating) && s.table.isEmpty

/-- The change from ACTIVE to DOZE that is common to its cases: the MODE event, the inactivity timer
stopped, the quiet note not quiet (R105). -/
def State.leaveActive (s : State) (cause : ModeCause) : State :=
  ((s.changeMode .doze cause).setInactivity .stopped).setQuiet false

/-- The period timer restarted with the doze period (R94, R105). -/
def State.restartDozePeriod (s : State) : State := s.setPeriod (some s.sched.dozePeriod)

/-- The change from ACTIVE to DOZE (R105). -/
def State.activeToDoze (s : State) (cause : ModeCause) : State :=
  let left := s.leaveActive cause
  if s.sched.cycle.isSome then (left.setPeriod none).clearMarks else left.restartDozePeriod

/-- The change from ACTIVE to DOZE made at an ACTIVE cycle end, which finds the cycle ending (R105). -/
def State.activeToDozeAtEnd (s : State) : State :=
  (s.leaveActive .idleTimeout).clearMarks.restartDozePeriod

/-- The quiet judgement at an ACTIVE cycle end taken while the mode is ACTIVE (R108). -/
def State.judgeQuiet (s : State) : State :=
  if s.quietNow then
    if s.sched.inactivity = .expired then (s.setQuiet true).activeToDozeAtEnd else s.setQuiet true
  else s.startInactivity.setQuiet false

/-- The cycle count increments, wrapping (R97). -/
def State.countCycle (s : State) : State :=
  s.withSched fun d => { d with cycleCount := d.cycleCount + 1 }

/-- The next start is decided at the end of an ACTIVE or DOZE cycle (R92, step 4). -/
def State.nextStart (s : State) (cy : Cycle) : State :=
  let ended := s.setCycle none
  if s.isScanning && (cy.late || cy.startOwed) then ended.beginCycle s.sched.mode.cycleKind
  else if s.sched.mode = .doze ∧ s.sched.periodTimer = none then ended.restartDozePeriod
  else ended

/-- The end of an ACTIVE or DOZE cycle (R92). -/
def State.endScanCycle (s : State) (k : CycleKind) : State :=
  let evaluated := s.countCycle.evaluateKeys
  let judged :=
    if k = .active ∧ evaluated.sched.mode = .active then evaluated.judgeQuiet else evaluated
  match judged.sched.cycle with
  | some cy => judged.nextStart cy
  | none => judged

/-- Work remains: a calibration job exists or a MEASURE entry is pending (R93). -/
def State.workRemains (s : State) : Bool :=
  (allChannels.any fun c => (s.job c).isSome) || s.table.any fun e => e.work.measured.isSome

/-- The end of a SERVICE cycle (R93, R103). -/
def State.endServiceCycle (s : State) : State :=
  let ended := s.setCycle none
  match s.sched.mode with
  | .service =>
    if s.workRemains then ended.beginCycle .service else ended.changeMode .stopped .workDone
  | .active => ended.beginCycle .active
  | .doze => ended.restartDozePeriod
  | .stopped => ended

/-- The end of the cycle in flight, by its kind. -/
def State.endCycle (s : State) : State :=
  match s.sched.cycle with
  | some cy =>
    match cy.kind with
    | .service => s.endServiceCycle
    | .active | .doze => s.endScanCycle cy.kind
  | none => s

/-- A cycle that has ended is taken to its end, in the claim in which it ends; the end may start a
cycle that is empty and ends at once (R91). Two ends are the most one claim can see: a cycle
started at an end has both marks clear, and a SERVICE cycle started at an end has work
(notes/assumptions/18.md). -/
def State.finishCycles : Nat → State → State
  | 0, s => s
  | n + 1, s => if s.cycleFinished then State.finishCycles n s.endCycle else s

/-- The end of the cycle in flight, if it has come, and of an empty one that it starts (R91). -/
def State.settleCycle (s : State) : State := State.finishCycles 3 s

/-- A cycle starts, and ends in the same claim if its lists are empty (R85, R91). -/
def State.startCycle (s : State) (k : CycleKind) : State := (s.beginCycle k).settleCycle

/-! ## From DOZE to ACTIVE (R106, R107) -/

/-- Set the reseed flags of the channels whose entry is not a doze member (R61). -/
def State.reseedNonDoze (s : State) : State :=
  s.mapChannels fun c ch => if s.isNonDozeEntry c then ch.setReseeds else ch

/-- The start-owed mark of the cycle in flight is set (R84). -/
def State.oweStart (s : State) : State :=
  s.setCycle (s.sched.cycle.map fun cy => { cy with startOwed := true })

/-- The change from DOZE to ACTIVE (R106). -/
def State.dozeToActive (s : State) (cause : ModeCause) : State :=
  let entered := ((s.changeMode .active cause).reseedNonDoze.startInactivity).setQuiet false
  if s.sched.cycle.isSome then (entered.setPeriod none).oweStart else entered.startCycle .active

/-- The signal of new work: the creation of a job, or the taking of a MEASURE (R107, R108). -/
def State.workSignal (s : State) : State :=
  match s.sched.mode with
  | .doze => s.dozeToActive .work
  | .active => s.setQuiet false
  | .stopped | .service => s

/-- The signal of an entry into PRESSING or TOUCHED: in DOZE, a doze wake for a doze member (R107). -/
def State.touchSignal (s : State) (c : ChannelNo) : State :=
  if s.sched.mode = .doze ∧ s.isDozeMember c = true then s.dozeToActive .touch else s

/-! ## Automatic jobs (R34, R44, R66) -/

/-- The channel may be given an automatic job: UNCAL, autocal yes, no pending MEASURE (R66). -/
def State.wantsAutoJob (s : State) (c : ChannelNo) : Bool :=
  (s.chan c).state == .uncal && (s.chan c).config.autocal && !s.measurePending c

/-- An automatic job is created, and signalled to the scheduler (R64). -/
def State.autoJob (s : State) (c : ChannelNo) : State := (s.createJob c .automatic).workSignal

/-- The automatic job asked for at a FAULT exit (R44, R66). -/
def State.autoJobAtFaultExit (s : State) (c : ChannelNo) : State :=
  if s.wantsAutoJob c && s.isScanning then s.autoJob c else s

/-- The automatic job asked for after a SET_CHANNEL (R34) and at the end of a MEASURE (R66). -/
def State.autoJobIfScanned (s : State) (c : ChannelNo) : State :=
  if s.wantsAutoJob c && s.inScanList c && s.isScanning then s.autoJob c else s

/-! ## Starting to scan (R104) -/

/-- Set the reseed flag of every slot of every channel (R61). -/
def State.reseedAll (s : State) : State := s.mapChannels fun _ ch => ch.setReseeds

/-- The channels that a transition into scanning asks an automatic job for, in ascending channel
order (R104). -/
def State.autoJobChannels (s : State) : List ChannelNo :=
  allChannels.filter fun c => s.wantsAutoJob c && s.inScanList c

/-- The automatic jobs of a transition into scanning (R104). -/
def State.autoJobs (s : State) (cs : List ChannelNo) : State :=
  cs.foldl (fun s c => s.createJob c .automatic) s

/-- The change from STOPPED or SERVICE into ACTIVE (R104). -/
def State.startActive (s : State) : State :=
  let reseeded := (s.changeMode .active .request).reseedAll
  let entered := ((reseeded.autoJobs reseeded.autoJobChannels).startInactivity).setQuiet false
  if s.sched.cycle.isSome then entered.oweStart else entered.startCycle .active

/-- The change from STOPPED into DOZE (R104): an automatic job created in DOZE is work. The jobs are
all created before the change of mode they signal (notes/assumptions/14.md). -/
def State.startDoze (s : State) : State :=
  let reseeded := (s.changeMode .doze .request).reseedAll
  let entered := (reseeded.autoJobs reseeded.autoJobChannels).restartDozePeriod
  if reseeded.autoJobChannels.isEmpty then entered else entered.workSignal

/-- The mode effect of an accepted CALIBRATE or MEASURE (R102, R107, R180, R181). -/
def State.workTaken (s : State) : State :=
  match s.sched.mode with
  | .stopped => (s.changeMode .service .work).startCycle .service
  | .service | .active | .doze => s.workSignal

end Sys2Proof.Machine
end

