-- ==== Sys2Proof/Machine/Engines.lean ====
section
/-! DEFINITION. The sense engines (chapter 1) and the expiries of the timers: the meanings of
SETTLE_END, HALF_WINDOW_END, BURST_COMPLETE, PERIOD_EXPIRY, INACTIVITY_EXPIRY and MAX_ON_EXPIRY. An
event that the state it names cannot raise is disregarded (notes/assumptions/1.md). -/

namespace Sys2Proof.Machine

/-! ## The burst (R5, R6, R10, R11) -/

/-- The length of a half-window in reference ticks (R6). -/
def halfWindowTicks (window : Nat) : Nat := 64 * window

/-- The time of one burst in reference ticks, from its dispatch to its completion: the settle period
and two half-windows (R7). -/
def burstTicks (window : Nat) : Nat := settleTicks + 2 * halfWindowTicks window

/-- The value at which the counter saturates (R6). -/
def counterTop : Nat := 16383

/-- The counter after some cycles of the sense oscillator (R6). -/
def countUp (counter cycles : Nat) : Nat := min counterTop (counter + cycles)

/-- The noise metric of two half-counts (R10). -/
def noiseMetric (c1 c2 : Nat) : Nat := (c1 - c2) + (c2 - c1)

/-- The class of a sample: the first test that holds decides (R11). -/
def classify (noiseLimit c1 c2 : Nat) : SampleClass :=
  if min c1 c2 < 32 then .fault .short
  else if max c1 c2 = counterTop then .fault .overrange
  else if noiseLimit < noiseMetric c1 c2 then .noisy
  else .clean

/-- The sample of a completed burst (R10, R11). -/
def BurstRecord.sample (r : BurstRecord) (noiseLimit c1 c2 : Nat) : Sample :=
  { channel := r.channel, slot := r.slot, raw := (c1 + c2) / 2, noise := noiseMetric c1 c2,
    cls := classify noiseLimit c1 c2 }

/-! ## Delivery (R13, R14, R15) -/

/-- The effect of a claim on a channel record is taken: the record, its events, its signals and the
automatic job of a FAULT exit (R38, R44, R53). -/
def State.applyEffect (s : State) (c : ChannelNo) (x : SampleEffect) : State :=
  let posted := (s.setChan c x.channel).postAll x.events
  let exited := if x.faultExit then posted.autoJobAtFaultExit c else posted
  if x.wake then exited.touchSignal c else exited

/-- A SCAN sample delivered to the channel table (R13): discarded if the generation has moved. -/
def State.deliverScan (s : State) (r : BurstRecord) (x : Sample) : State :=
  if r.generation = (s.chan r.channel).generation then
    s.applyEffect r.channel ((s.chan r.channel).scanSample r.channel x)
  else s

/-- A MEASURE sample delivered to the pending-request table (R15): appended to its entry, which
completes DONE at the requested count (R169) and may then ask for an automatic job (R66). -/
def State.deliverMeasure (s : State) (r : BurstRecord) (tag : Byte) (x : Sample) : State :=
  match s.entryOfTag tag with
  | some e =>
    match e.work with
    | .measure c slot count results =>
      if c = r.channel then
        let work := LongWork.measure c slot count (results ++ [⟨x.raw, x.noise, x.cls⟩])
        let e' := { e with work := work }
        let appended := { s with table := s.table.replace e e' }
        if work.hasAllResults then (appended.completeEntry e' .done).autoJobIfScanned c else appended
      else s
    | .calibrate _ _ => s
  | none => s

/-- A sample is delivered by the purpose of its burst (R9). -/
def State.deliver (s : State) (r : BurstRecord) (x : Sample) : State :=
  match r.purpose with
  | .scan => s.deliverScan r x
  | .cal serial => s.deliverCal r serial x
  | .measure tag => s.deliverMeasure r tag x

/-! ## The meanings -/

/-- SETTLE_END: the counter is cleared and the first half-window starts (R5). -/
def State.settleEnd (s : State) (e : EngineId) : State :=
  match s.engine e with
  | .settle r _ => s.setEngine e (.half1 r (halfWindowTicks r.window) 0)
  | .idle | .half1 _ _ _ | .half2 _ _ _ _ => s

/-- HALF_WINDOW_END: c1 is kept, the counter cleared, and the second half-window starts (R6). -/
def State.halfWindowEnd (s : State) (e : EngineId) (cycles : Nat) : State :=
  match s.engine e with
  | .half1 r _ counter =>
    s.setEngine e (.half2 r (halfWindowTicks r.window) 0 (countUp counter cycles))
  | .idle | .settle _ _ | .half2 _ _ _ _ => s

/-- The engine returns to IDLE: the scheduler offers it its next item, and the cycle ends if this was
the last (R9, R89, R91). -/
def State.engineFree (s : State) (e : EngineId) : State :=
  ((s.setEngine e .idle).offer e).settleCycle

/-- BURST_COMPLETE: the sample is computed with the noise limit the channel holds now (R12) and
delivered, and the engine returns to IDLE (R9). -/
def State.burstComplete (s : State) (e : EngineId) (cycles : Nat) : State :=
  match s.engine e with
  | .half2 r _ counter c1 =>
    let x := r.sample (s.chan r.channel).config.noiseLimit c1 (countUp counter cycles)
    (s.deliver r x).engineFree e
  | .idle | .settle _ _ | .half1 _ _ _ => s

/-- A period expiry with a cycle in flight marks it late and counts an overrun (R96, R97). -/
def State.lateCycle (s : State) : State :=
  s.withSched fun d =>
    { d with
      cycle := d.cycle.map fun cy => { cy with late := true }
      periodTimer := none
      overruns := min 65535 (d.overruns + 1) }

/-- PERIOD_EXPIRY: a running period timer runs out, and starts a cycle (R95) or finds one in flight
(R96). -/
def State.periodExpiry (s : State) : State :=
  if s.sched.periodTimer.isSome then
    if s.sched.cycle.isSome then s.lateCycle
    else if s.isScanning then (s.setPeriod none).startCycle s.sched.mode.cycleKind
    else s.setPeriod none
  else s

/-- INACTIVITY_EXPIRY: a running inactivity timer runs out in ACTIVE, and leads into DOZE at once or
is remembered (R109). -/
def State.inactivityExpiry (s : State) : State :=
  match s.sched.inactivity with
  | .running _ =>
    if s.sched.mode = .active then
      if s.sched.cycle.isNone && s.sched.quiet then s.activeToDoze .idleTimeout
      else s.setInactivity .expired
    else s
  | .stopped | .expired => s

/-- MAX_ON_EXPIRY: a running max-on timer runs out on a TOUCHED or RELEASING channel (R59). -/
def State.maxOnExpiry (s : State) (c : ChannelNo) : State :=
  let ch := s.chan c
  if ch.maxOn.isSome && ch.state.isHeld then
    (s.setChan c ch.maxOnExpire).post (.recal c .stuck)
  else s

/-- SETTLE_END (R5). -/
def execSettleEnd (e : EngineId) (s : State) : Host.Outcome State Fault Refusal :=
  .next (s.settleEnd e)

/-- HALF_WINDOW_END (R6). -/
def execHalfWindowEnd (e : EngineId) (cycles : Nat) (s : State) : Host.Outcome State Fault Refusal :=
  .next (s.halfWindowEnd e cycles)

/-- BURST_COMPLETE (R9). -/
def execBurstComplete (e : EngineId) (cycles : Nat) (s : State) : Host.Outcome State Fault Refusal :=
  .next (s.burstComplete e cycles)

/-- PERIOD_EXPIRY (R95). -/
def execPeriodExpiry (s : State) : Host.Outcome State Fault Refusal :=
  .next s.periodExpiry

/-- INACTIVITY_EXPIRY (R109). -/
def execInactivityExpiry (s : State) : Host.Outcome State Fault Refusal :=
  .next s.inactivityExpiry

/-- MAX_ON_EXPIRY (R59); a number that is no channel's names no timer. -/
def execMaxOnExpiry (channel : Nat) (s : State) : Host.Outcome State Fault Refusal :=
  .next (if h : channel < 24 then s.maxOnExpiry ⟨channel, h⟩ else s)

end Sys2Proof.Machine
end

