-- ==== Sys2Proof/Machine/Stopping.lean ====
section
/-! DEFINITION. The stop of SET_MODE STOPPED (R98, R110): its parts in the order in which they are taken,
and the bursts that complete in its instant (R16). -/

namespace Sys2Proof.Machine

/-- The stop's part at the scheduler: the mode is STOPPED, both timers are stopped, the note is not
quiet, and the cycle in flight is abandoned, its lists and marks lost (R98, R110). -/
def State.stopScheduler (s : State) : State :=
  s.withSched fun d =>
    { d with
      mode := .stopped, periodTimer := none, inactivity := .stopped, quiet := false, cycle := none }

/-- A burst completes at its engine in the instant of the stop, before the abandonment reaches the
engine, and its sample reaches its destination before the stop's claim there (R16, R38, R44). The
scheduler has taken the stop, and offers no further item (R98). -/
def State.completeInStop (s : State) (m : EngineId × Nat) : State :=
  match s.engine m.1 with
  | .half2 r _ counter c1 =>
    let x := r.sample (s.chan r.channel).config.noiseLimit c1 (countUp counter m.2)
    (s.deliver r x).setEngine m.1 .idle
  | .idle | .settle _ _ | .half1 _ _ _ => s

/-- The bursts that complete in the instant of the stop. Which of them do, in what order and with what
counts, the manual does not fix: a free value (notes/assumptions/26.md). -/
def State.meetStop (s : State) : State :=
  { (Config.stopMeets s.freeCount).foldl State.completeInStop s with freeCount := s.freeCount + 1 }

/-- Every pending MEASURE entry completes ABORTED, oldest first (R110). -/
def State.stopMeasures (s : State) : State :=
  (s.table.filter fun e => e.work.measured.isSome).foldl
    (fun s e => s.completeEntry e .aborted) s

/-- The stop's parts behind the scheduler's, up to the MODE event: the bursts in flight are abandoned,
the jobs and the MEASURE entries end ABORTED, the touches end and the keys are released (R110). -/
def State.stopOthers (s : State) : State :=
  let aborted := s.abandonBursts.stopJobs.stopMeasures
  ((aborted.mapChannels fun _ ch => ch.stop).stopKeys).post (.mode .stopped .request)

/-- The stop of SET_MODE STOPPED, up to its MODE event (R110). -/
def State.stopPart (s : State) : State := s.stopScheduler.meetStop.stopOthers

end Sys2Proof.Machine
end

