-- ==== Sys2Proof/Machine/Requests.lean ====
section
/-! DEFINITION. The command processor (chapter 10): the take rule, the order of the checks, and the
meaning of every request. A request command finds its operands in the earliest FULL slot; where
that slot holds another request, or the take rule does not hold, the command is disregarded
(notes/assumptions/1.md, 2.md). -/

namespace Sys2Proof.Machine

/-! ## Taking a request (R164, R165) -/

/-- The frame that the command processor may take now: the earliest FULL slot, while held + pending
is 30 or below (R164). No request is taken in reset (R186). -/
def State.takeable (s : State) : Option (SlotId × Frame) :=
  if s.load ≤ 30 ∧ s.inReset = none then s.link.earliestFull else none

/-- The command processor takes the earliest FULL slot if its CODE is one that the command stands
for: the slot returns to EMPTY and the frame is handled in the same claim (R164, R165). -/
def State.takeRequest (s : State) (codeOk : Byte → Bool) (handle : State → Frame → State) : State :=
  match s.takeable with
  | some (i, f) => if codeOk f.code then handle (s.withLink (s.link.takeSlot i)) f else s
  | none => s

/-- The first check that fails decides the status (R166). -/
def firstFailure : List (Bool × Status) → Option Status
  | [] => none
  | (fails, status) :: rest => if fails then some status else firstFailure rest

/-- A request whose payload reads well and whose later checks pass makes its effect; any other is
answered with the status of the first check that failed, and changes nothing (R165, R166). -/
def State.perform {α : Type} (s : State) (tag : Byte) (operands : Except Status α)
    (checks : α → List (Bool × Status)) (effect : α → State) : State :=
  match operands with
  | .error status => s.reply tag status
  | .ok x =>
    match firstFailure (checks x) with
    | some status => s.reply tag status
    | none => effect x

/-- The mode is not STOPPED, for a request that needs it (step 4). -/
def State.notStopped (s : State) : Bool := s.sched.mode != .stopped

/-- A channel is CALIBRATING or the subject of a pending MEASURE (step 5). -/
def State.channelBusy (s : State) (c : ChannelNo) : Bool :=
  (s.chan c).state == .calibrating || s.measurePending c

/-- The checks of step 6 for a long request (R166). -/
def State.tableChecks (s : State) (tag : Byte) : List (Bool × Status) :=
  [(decide (4 ≤ s.table.length), .full), ((s.entryOfTag tag).isSome, .tagInUse)]

/-- A list holds an item twice. -/
def hasRepeat {α : Type} [DecidableEq α] : List α → Bool
  | [] => false
  | x :: rest => rest.any (fun y => y == x) || hasRepeat rest

/-! ## Identity and status (R170, R171) -/

/-- IDENTIFY (R170). -/
def State.doIdentify (s : State) (f : Frame) : State :=
  s.perform f.tag (parseEmpty f.payload) (fun _ => []) fun _ =>
    s.reply f.tag .ok (.identity s.link.address)

/-- STATUS (R171): the values as they stand before its own REPLY is offered. -/
def State.doStatus (s : State) (f : Frame) : State :=
  s.perform f.tag (parseEmpty f.payload) (fun _ => []) fun _ =>
    s.reply f.tag .ok
      (.status s.sched.mode s.lastCause s.held s.table.length s.queue.lost s.sched.overruns
        s.sched.cycleCount)

/-! ## Channels (R172, R173) -/

/-- SET_CHANNEL (R30, R34, R172). -/
def State.doSetChannel (s : State) (f : Frame) : State :=
  s.perform f.tag (parseSetChannel f.payload) (fun x => [(s.channelBusy x.1, .busy)]) fun x =>
    ((s.setChan x.1 ((s.chan x.1).configure x.2)).autoJobIfScanned x.1).reply f.tag .ok

/-- GET_CHANNEL (R36, R173). -/
def State.doGetChannel (s : State) (f : Frame) : State :=
  s.perform f.tag (parseChannel f.payload) (fun _ => []) fun c =>
    ({ s with freeCount := s.freeCount + viewFreeBytes }).reply f.tag .ok
      (.channel (s.chan c) s.freeCount)

/-! ## Keys and the scan list (R174 to R176) -/

/-- A defined key other than the one named lists the channel (R115). -/
def State.listedElsewhere (s : State) (k : KeyNo) (c : ChannelNo) : Bool :=
  allKeys.any fun k' =>
    k' != k &&
      match s.key k' with
      | some r => r.channels.any fun c' => c' == c
      | none => false

/-- A key record as SET_KEY writes it (R115, R174). -/
def SetKeyOperands.record (x : SetKeyOperands) : Key :=
  { kind := x.kind, channels := x.channels, group := x.group, slideStep := x.slideStep }

/-- SET_KEY (R115, R174). -/
def State.doSetKey (s : State) (f : Frame) : State :=
  s.perform f.tag (parseSetKey f.payload)
    (fun x =>
      [(s.notStopped, .state),
        (hasRepeat x.channels || x.channels.any (s.listedElsewhere x.key), .conflict)])
    fun x => (s.setKeyRecord x.key (some x.record)).reply f.tag .ok

/-- CLEAR_KEY (R115, R175). -/
def State.doClearKey (s : State) (f : Frame) : State :=
  s.perform f.tag (parseKey f.payload) (fun _ => [(s.notStopped, .state)]) fun k =>
    (s.setKeyRecord k none).reply f.tag .ok

/-- GET_KEY (R115, R175). -/
def State.doGetKey (s : State) (f : Frame) : State :=
  s.perform f.tag (parseKey f.payload) (fun _ => []) fun k =>
    s.reply f.tag .ok (.key k (s.key k))

/-- SET_SCAN (R82, R176). -/
def State.doSetScan (s : State) (f : Frame) : State :=
  s.perform f.tag (parseSetScan f.payload)
    (fun es => [(s.notStopped, .state), (hasRepeat (es.map ScanEntry.channel), .conflict)])
    fun es => (s.withSched fun d => { d with scanList := es }).reply f.tag .ok

/-- GET_SCAN (R176). -/
def State.doGetScan (s : State) (f : Frame) : State :=
  s.perform f.tag (parseEmpty f.payload) (fun _ => []) fun _ =>
    s.reply f.tag .ok (.scanList s.sched.scanList)

/-! ## Timing, events and mode (R177, R178) -/

/-- SET_TIMING (R112, R177): no timer is touched. -/
def State.doSetTiming (s : State) (f : Frame) : State :=
  s.perform f.tag (parseSetTiming f.payload) (fun _ => []) fun x =>
    (s.withSched fun d =>
      { d with
        activePeriod := x.activePeriod, dozePeriod := x.dozePeriod, idleTime := x.idleTime
      }).reply f.tag .ok

/-- SET_EVENTS (R138, R177). -/
def State.doSetEvents (s : State) (f : Frame) : State :=
  s.perform f.tag (parseByte f.payload) (fun _ => []) fun m =>
    ({ s with queue := { s.queue with mask := m } }).reply f.tag .ok

/-- The change that an accepted SET_MODE makes, by the mode in force and the target (R102). The
target SERVICE is refused before this, and so is DOZE in SERVICE. -/
def State.setMode (s : State) (target : Mode) : State :=
  match s.sched.mode, target with
  | .stopped, .active => s.startActive
  | .service, .active => s.startActive
  | .stopped, .doze => s.startDoze
  | .service, .stopped => s.stopPart
  | .active, .stopped => s.stopPart
  | .doze, .stopped => s.stopPart
  | .active, .doze => s.activeToDoze .request
  | .doze, .active => s.dozeToActive .request
  | _, _ => s

/-- SET_MODE (R102, R178). -/
def State.doSetMode (s : State) (f : Frame) : State :=
  s.perform f.tag (parseTarget f.payload)
    (fun m => [(m == .doze && s.sched.mode == .service, .state)])
    fun m => (s.setMode m).reply f.tag .ok

/-! ## Long requests (R179 to R183) -/

/-- The channels a CALIBRATE names: those listed, or every enabled channel for an empty list (R179). -/
def State.namedChannels (s : State) (cs : List ChannelNo) : List ChannelNo :=
  if cs.isEmpty then allChannels.filter fun c => (s.chan c).config.enabled else cs

/-- The checks of CALIBRATE after step 3 (R179). -/
def State.calibrateChecks (s : State) (tag : Byte) (cs : List ChannelNo) : List (Bool × Status) :=
  let named := s.namedChannels cs
  [(named.isEmpty || named.any fun c => (s.chan c).state == .off, .state),
    (hasRepeat named, .conflict), (named.any s.channelBusy, .busy)] ++ s.tableChecks tag

/-- A pending entry is opened at the tail of the table (R168). -/
def State.openEntry (s : State) (tag : Byte) (work : LongWork) : State :=
  { s with table := s.table ++ [{ tag := tag, work := work }] }

/-- One job of origin REQUEST is created for each channel (R65). -/
def State.createJobs (s : State) (tag : Byte) (cs : List ChannelNo) : State :=
  cs.foldl (fun s c => s.createJob c (.request tag)) s

/-- CALIBRATE (R65, R179, R180). -/
def State.doCalibrate (s : State) (f : Frame) : State :=
  s.perform f.tag (parseCalibrate f.payload) (s.calibrateChecks f.tag) fun cs =>
    let named := s.namedChannels cs
    (((s.openEntry f.tag (.calibrate named [])).createJobs f.tag named).workTaken).reply f.tag
      .accepted

/-- The checks of MEASURE, with the slot index judged against the channel's hop list (R181). -/
def State.measureChecks (s : State) (tag : Byte) (x : MeasureOperands) : List (Bool × Status) :=
  [(decide ((s.chan x.channel).config.hopList.length ≤ x.slot), .range),
    ((s.chan x.channel).state == .off, .state), (s.channelBusy x.channel, .busy)]
    ++ s.tableChecks tag

/-- MEASURE (R181). -/
def State.doMeasure (s : State) (f : Frame) : State :=
  s.perform f.tag (parseMeasure f.payload) (s.measureChecks f.tag) fun x =>
    ((s.openEntry f.tag (.measure x.channel x.slot x.count [])).workTaken).reply f.tag .accepted

/-- The engine holds a MEASURE record with the tag (R17). -/
def Engine.measuresTag (g : Engine) (tag : Byte) : Bool :=
  match g.record? with
  | some r => r.purpose == .measure tag
  | none => false

/-- The CANCEL of a CALIBRATE entry: its jobs end ABORTED, and the entry with all its results
completes CANCELLED (R79, R183). -/
def State.cancelCalibrate (s : State) (tag : Byte) : State :=
  let aborted := s.abortJobsOfTag tag
  match aborted.entryOfTag tag with
  | some e => aborted.completeEntry e .cancelled
  | none => aborted

/-- The CANCEL of a MEASURE entry: its burst in flight is abandoned, the entry completes CANCELLED,
an automatic job may be asked for, and the engine is offered its next item (R17, R66, R183), in this
order (notes/assumptions/15.md). -/
def State.cancelMeasure (s : State) (e : PendingEntry) (c : ChannelNo) : State :=
  if (s.engine (engineOf c)).measuresTag e.tag then
    let abandoned := s.setEngine (engineOf c) .idle
    ((abandoned.completeEntry e .cancelled).autoJobIfScanned c).engineFree (engineOf c)
  else (s.completeEntry e .cancelled).autoJobIfScanned c

/-- The CANCEL of a pending entry, by its kind (R183). -/
def State.cancelEntry (s : State) (e : PendingEntry) : State :=
  match e.work with
  | .calibrate _ _ => s.cancelCalibrate e.tag
  | .measure c _ _ _ => s.cancelMeasure e c

/-- CANCEL (R183). -/
def State.doCancel (s : State) (f : Frame) : State :=
  s.perform f.tag (parseByte f.payload) (fun t => [((s.entryOfTag t).isNone, .notFound)]) fun t =>
    match s.entryOfTag t with
    | some e => (s.cancelEntry e).reply f.tag .ok
    | none => s.reply f.tag .notFound

/-! ## RESTART and unknown requests (R166, R184) -/

/-- RESTART (R184): a reset with no REPLY. -/
def State.doRestart (s : State) (f : Frame) : State :=
  s.perform f.tag (parseEmpty f.payload) (fun _ => []) fun _ => s.restarted f.tag

/-- A CODE that is none of the sixteen is refused (R166, step 1). -/
def State.doUnknownRequest (s : State) (f : Frame) : State := s.reply f.tag .badCode

/-! ## The meanings -/

/-- IDENTIFY (R170). -/
def execIdentify (s : State) : Host.Outcome State Fault Refusal :=
  .next (s.takeRequest (fun c => c == 0x01) State.doIdentify)

/-- STATUS (R171). -/
def execStatus (s : State) : Host.Outcome State Fault Refusal :=
  .next (s.takeRequest (fun c => c == 0x02) State.doStatus)

/-- SET_CHANNEL (R30, R172). -/
def execSetChannel (s : State) : Host.Outcome State Fault Refusal :=
  .next (s.takeRequest (fun c => c == 0x10) State.doSetChannel)

/-- GET_CHANNEL (R173). -/
def execGetChannel (s : State) : Host.Outcome State Fault Refusal :=
  .next (s.takeRequest (fun c => c == 0x11) State.doGetChannel)

/-- SET_KEY (R174). -/
def execSetKey (s : State) : Host.Outcome State Fault Refusal :=
  .next (s.takeRequest (fun c => c == 0x18) State.doSetKey)

/-- CLEAR_KEY (R175). -/
def execClearKey (s : State) : Host.Outcome State Fault Refusal :=
  .next (s.takeRequest (fun c => c == 0x19) State.doClearKey)

/-- GET_KEY (R175). -/
def execGetKey (s : State) : Host.Outcome State Fault Refusal :=
  .next (s.takeRequest (fun c => c == 0x1A) State.doGetKey)

/-- SET_SCAN (R176). -/
def execSetScan (s : State) : Host.Outcome State Fault Refusal :=
  .next (s.takeRequest (fun c => c == 0x20) State.doSetScan)

/-- GET_SCAN (R176). -/
def execGetScan (s : State) : Host.Outcome State Fault Refusal :=
  .next (s.takeRequest (fun c => c == 0x21) State.doGetScan)

/-- SET_TIMING (R177). -/
def execSetTiming (s : State) : Host.Outcome State Fault Refusal :=
  .next (s.takeRequest (fun c => c == 0x28) State.doSetTiming)

/-- SET_EVENTS (R177). -/
def execSetEvents (s : State) : Host.Outcome State Fault Refusal :=
  .next (s.takeRequest (fun c => c == 0x29) State.doSetEvents)

/-- SET_MODE (R178). -/
def execSetMode (s : State) : Host.Outcome State Fault Refusal :=
  .next (s.takeRequest (fun c => c == 0x2A) State.doSetMode)

/-- CALIBRATE (R180). -/
def execCalibrate (s : State) : Host.Outcome State Fault Refusal :=
  .next (s.takeRequest (fun c => c == 0x30) State.doCalibrate)

/-- MEASURE (R181). -/
def execMeasure (s : State) : Host.Outcome State Fault Refusal :=
  .next (s.takeRequest (fun c => c == 0x31) State.doMeasure)

/-- CANCEL (R183). -/
def execCancel (s : State) : Host.Outcome State Fault Refusal :=
  .next (s.takeRequest (fun c => c == 0x38) State.doCancel)

/-- RESTART (R184). -/
def execRestart (s : State) : Host.Outcome State Fault Refusal :=
  .next (s.takeRequest (fun c => c == 0x3F) State.doRestart)

/-- UNKNOWN_REQUEST (R166). -/
def execUnknownRequest (s : State) : Host.Outcome State Fault Refusal :=
  .next (s.takeRequest (fun c => !requestCodes.contains c) State.doUnknownRequest)

end Sys2Proof.Machine
end

