-- ==== Sys2Proof/Machine/Dispatch.lean ====
section
/-! DEFINITION. The dispatch: one arm for each command, one direct call of its meaning. -/

namespace Sys2Proof.Machine

def exec (i : Instr) (s : State) : Host.Outcome State Fault Refusal :=
  match i with
  | .identify => Sys2Proof.Machine.execIdentify s
  | .status => Sys2Proof.Machine.execStatus s
  | .setChannel => Sys2Proof.Machine.execSetChannel s
  | .getChannel => Sys2Proof.Machine.execGetChannel s
  | .setKey => Sys2Proof.Machine.execSetKey s
  | .clearKey => Sys2Proof.Machine.execClearKey s
  | .getKey => Sys2Proof.Machine.execGetKey s
  | .setScan => Sys2Proof.Machine.execSetScan s
  | .getScan => Sys2Proof.Machine.execGetScan s
  | .setTiming => Sys2Proof.Machine.execSetTiming s
  | .setEvents => Sys2Proof.Machine.execSetEvents s
  | .setMode => Sys2Proof.Machine.execSetMode s
  | .calibrate => Sys2Proof.Machine.execCalibrate s
  | .measure => Sys2Proof.Machine.execMeasure s
  | .cancel => Sys2Proof.Machine.execCancel s
  | .restart => Sys2Proof.Machine.execRestart s
  | .unknownRequest => Sys2Proof.Machine.execUnknownRequest s
  | .settleEnd engine => Sys2Proof.Machine.execSettleEnd engine s
  | .halfWindowEnd engine cycles => Sys2Proof.Machine.execHalfWindowEnd engine cycles s
  | .burstComplete engine cycles => Sys2Proof.Machine.execBurstComplete engine cycles s
  | .periodExpiry => Sys2Proof.Machine.execPeriodExpiry s
  | .inactivityExpiry => Sys2Proof.Machine.execInactivityExpiry s
  | .maxOnExpiry channel => Sys2Proof.Machine.execMaxOnExpiry channel s
  | .writeAddress address => Sys2Proof.Machine.execWriteAddress address s
  | .writeByte byte => Sys2Proof.Machine.execWriteByte byte s
  | .transactionEnd kind => Sys2Proof.Machine.execTransactionEnd kind s
  | .readAddress address => Sys2Proof.Machine.execReadAddress address s
  | .headRetire => Sys2Proof.Machine.execHeadRetire s
  | .busTimeout => Sys2Proof.Machine.execBusTimeout s
  | .powerOnReset => Sys2Proof.Machine.execPowerOnReset s
  | .pinReset => Sys2Proof.Machine.execPinReset s
  | .resetRelease adr1 adr0 => Sys2Proof.Machine.execResetRelease adr1 adr0 s
  | .flagsByteStart => Sys2Proof.Machine.execFlagsByteStart s

end Sys2Proof.Machine
end

