-- ==== Sys2Proof/Machine/Step.lean ====
section
/-! DEFINITION. One step of the part: the command at the front of the queue is run; on an empty queue
the next change at the bus lines is taken; and where none waits one ms passes. -/

namespace Sys2Proof.Machine

/-- Take the command at the front of the queue and run it with the queue's rest. On an empty queue
the port takes the next change at the bus lines, which may spell commands (R150;
notes/assumptions/27.md), and where none waits the part idles for one 1 ms tick
(notes/assumptions/3.md). The order of the queue is the order in which
simultaneous events are taken (notes/assumptions/10.md, 19.md). -/
def step (s : State) : Host.Outcome State Fault Refusal :=
  match s.pending with
  | [] => .next s.idle
  | c :: rest => exec c { s with pending := rest }

/-- `s` with the command that a word spells at the front of its queue; `s` itself where the word
spells none. -/
def State.withFetchWord (s : State) (nbits w : Nat) : State :=
  match decodeTableWord nbits w with
  | some c => { s with pending := c :: s.pending }
  | none => s

end Sys2Proof.Machine
end

