-- ==== Sys2Proof/Safety.lean ====
section
/-! DEFINITION. What the manual promises of the whole part at every moment: the invariants that the
statements are made in terms of. -/

namespace Sys2Proof.Machine

/-! ## The outbound queue and the pending-request table -/

/-- The queue and the table together never hold more than 32 entries (R136). -/
def State.RoomKept (s : State) : Prop := s.load ≤ 32

/-- The body is an event, which the part raises by itself, and not an answer (R132). -/
def Body.isEvent : Body → Bool
  | .reply _ _ _ => false
  | .complete _ _ _ => false
  | .ready _ _ _ => true
  | .press _ _ _ => true
  | .release _ _ => true
  | .slide _ _ => true
  | .fault _ _ => true
  | .noise _ _ _ => true
  | .recal _ _ => true
  | .mode _ _ => true
  | .link _ _ => true
  | .overrun _ => true

/-- The queue never holds more than 28 event entries (R134). -/
def Queue.EventsBounded (q : Queue) : Prop := (q.entries.countP fun e => e.body.isEvent) ≤ 28

/-- Entries carry consecutive sequence numbers from a first one, mod 256. -/
def seqRun : Byte → List Entry → Prop
  | _, [] => True
  | n, e :: rest => e.seq = n ∧ seqRun (n + 1) rest

/-- The entries carry consecutive sequence numbers in queue order, and the last is one below the next
sequence number (R133). -/
def Queue.SeqConsecutive (q : Queue) : Prop :=
  seqRun (q.nextSeq - BitVec.ofNat 8 q.entries.length) q.entries

/-- Every entry behind the head is QUEUED (R131). -/
def Queue.OnlyHeadUnderway (q : Queue) : Prop := ∀ e ∈ q.entries.tail, e.read = .queued

/-- For each key, at most one SLIDE from which no byte has been sent (R139). -/
def Queue.OneUnsentSlide (q : Queue) : Prop :=
  ∀ k, (q.entries.countP (Entry.isQueuedSlide k)) ≤ 1

/-- The pending table holds at most four entries, no two with the same tag (R168). -/
def State.TableKept (s : State) : Prop :=
  s.table.length ≤ 4 ∧ (s.table.map PendingEntry.tag).Nodup

/-! ## Channels and jobs -/

/-- The channel holds one slot record for each position of its hop list, of one to four positions,
with the step of that position, and its current slot index names one of them (R20, R21). -/
def Channel.SlotsMatch (ch : Channel) : Prop :=
  ch.slots.map Slot.step = ch.config.hopList ∧ 1 ≤ ch.config.hopList.length
    ∧ ch.config.hopList.length ≤ 4 ∧ ch.current < ch.config.hopList.length

/-- A slot record that holds no baseline and no filtered value. -/
def Slot.Unfilled (sl : Slot) : Prop := sl.baseline = none ∧ sl.filtered = none

/-- A slot record that holds both a baseline and a filtered value. -/
def Slot.Filled (sl : Slot) : Prop := sl.baseline.isSome ∧ sl.filtered.isSome

/-- What the slots hold, by the state (R22): nothing in OFF, UNCAL and FAULT; everything in a
detecting state; in CALIBRATING, the slots before the acquire slot of a job in ACQUIRE. -/
def slotsFollowState (ch : Channel) (j : Option Job) : Prop :=
  match ch.state with
  | .off | .uncal | .fault => ∀ sl ∈ ch.slots, sl.Unfilled
  | .idle | .pressing | .touched | .releasing => ∀ sl ∈ ch.slots, sl.Filled
  | .calibrating =>
    ∀ job ∈ j, job.phase = .acquire →
      job.acquireSlot < ch.config.hopList.length ∧ ∀ sl ∈ ch.slots.take job.acquireSlot, sl.Filled

/-- A calibration job exists for a channel exactly while it is CALIBRATING (R63). -/
def jobFollowsState (ch : Channel) (j : Option Job) : Prop := j.isSome = (ch.state == .calibrating)

/-- The debounce count lies below 8, and is 0 outside PRESSING and RELEASING (R52). -/
def Channel.DebounceKept (ch : Channel) : Prop :=
  ch.debounce < 8 ∧ (ch.state ≠ .pressing → ch.state ≠ .releasing → ch.debounce = 0)

/-- The window codes still possible in a job's search lie in 1..64, lo at or below hi, and they differ
while the search goes on (R63, R70). -/
def Job.SearchKept (j : Job) : Prop :=
  1 ≤ j.lo ∧ j.lo ≤ j.hi ∧ j.hi ≤ 64 ∧ (j.phase = .search → j.lo < j.hi)

/-- A channel's max-on timer runs only while the channel is TOUCHED or RELEASING (R54). -/
def Channel.TimerKept (ch : Channel) : Prop := ch.maxOn.isSome → ch.state.isHeld = true

/-- A channel is OFF exactly while it is disabled (R23). -/
def Channel.OffKept (ch : Channel) : Prop := ch.state = .off ↔ ch.config.enabled = false

/-- What holds of every channel record and its job at every moment. -/
def channelKept (ch : Channel) (j : Option Job) : Prop :=
  ch.config.valid = true ∧ ch.SlotsMatch ∧ slotsFollowState ch j ∧ jobFollowsState ch j
    ∧ ch.DebounceKept ∧ ch.TimerKept ∧ (∀ job ∈ j, job.SearchKept) ∧ ch.OffKept

/-- Every channel record and its job are as the rules keep them. -/
def State.ChannelsKept (s : State) : Prop := ∀ c, channelKept (s.chan c) (s.job c)

/-- A number of counts lies in 0..16383, the range of a raw value and of a noise metric (R10, R26). -/
def isCount (n : Nat) : Prop := n ≤ 16383

/-- The slots and the live fields of a channel lie in their ranges (R21, R25, R26); a run that reaches
its end is cleared in the same claim, so its last value is never held. -/
def Channel.ValuesKept (ch : Channel) : Prop :=
  (∀ sl ∈ ch.slots, (∀ b ∈ sl.baseline, b ≤ 262128) ∧ ∀ f ∈ sl.filtered, f ≤ 262128)
    ∧ ch.noisyRun ≤ 15 ∧ ch.faultRun < 3 ∧ ch.goodRun < 8 ∧ ch.driftCount ≤ 255 ∧ ch.negRun ≤ 15
    ∧ (∀ ms ∈ ch.maxOn, 1 ≤ ms ∧ ms ≤ 60000)
    ∧ isCount ch.lastRaw ∧ isCount ch.lastNoise ∧ ∀ d ∈ ch.lastDelta, -2048 ≤ d ∧ d ≤ 2047

/-- The counts of a calibration job lie in their ranges, and its sum is one of as many raw values as it
has counted (R63). -/
def Job.ValuesKept (j : Job) : Prop :=
  j.cleanCount < 8 ∧ j.sum ≤ 16383 * j.cleanCount ∧ j.noisyCount < 16 ∧ j.faultRun < 3

/-- The half-counts that the engines hold are saturated at 16383 (R6). -/
def State.CountsKept (s : State) : Prop :=
  ∀ e,
    match s.engine e with
    | .idle => True
    | .settle _ _ => True
    | .half1 _ _ counter => isCount counter
    | .half2 _ _ counter c1 => isCount counter ∧ isCount c1

/-- Every channel, job and engine holds values in their ranges. -/
def State.ValuesKept (s : State) : Prop :=
  s.CountsKept ∧ ∀ c, (s.chan c).ValuesKept ∧ ∀ j ∈ s.job c, j.ValuesKept

/-- The pending table and the jobs serve one another (R63, R77, R168): a job exists exactly while its
channel is CALIBRATING; the table holds at most four entries with distinct tags; every CALIBRATE entry
still lacks a result, and each subject it lacks has a job of the entry's tag; every job of a request
is one that its entry lacks; and no channel is the subject of two MEASURE entries, or of one while it
is CALIBRATING. -/
def State.WorkKept (s : State) : Prop :=
  (∀ c, jobFollowsState (s.chan c) (s.job c)) ∧ s.TableKept
    ∧ (∀ e ∈ s.table, ∀ subjects results, e.work = .calibrate subjects results →
        subjects.Nodup
          ∧ (∃ c ∈ subjects, c ∉ results.map CalResult.channel)
          ∧ ∀ c ∈ subjects, c ∉ results.map CalResult.channel →
            ∃ j, s.job c = some j ∧ j.origin = .request e.tag)
    ∧ (∀ c j tag, s.job c = some j → j.origin = .request tag →
        ∃ e ∈ s.table, e.tag = tag ∧ ∃ subjects results, e.work = .calibrate subjects results
          ∧ c ∈ subjects ∧ c ∉ results.map CalResult.channel)
    ∧ (∀ e ∈ s.table, ∀ c, e.work.measured = some c → (s.chan c).state ≠ .calibrating)
    ∧ (s.table.filterMap fun e => e.work.measured).Nodup

/-! ## The scheduler and the engines -/

/-- The channel of a work item. -/
def WorkItem.channel : WorkItem → ChannelNo
  | .scan c => c
  | .cal c _ => c
  | .measure c _ => c

/-- Each engine measures, and has on its work list, the channels of its own group alone (R1). -/
def State.EnginesOwn (s : State) : Prop :=
  (∀ e r, (s.engine e).record? = some r → engineOf r.channel = e)
    ∧ ∀ cy, s.sched.cycle = some cy → ∀ e, ∀ item ∈ cy.lists.get e, engineOf item.channel = e

/-- The timers are stopped in STOPPED and SERVICE, and in STOPPED no cycle and no burst is in flight
(R100). -/
def State.StillWhenStopped (s : State) : Prop :=
  (s.sched.mode = .stopped ∨ s.sched.mode = .service →
      s.sched.periodTimer = none ∧ s.sched.inactivity = .stopped)
    ∧ (s.sched.mode = .stopped → s.sched.cycle = none ∧ s.enginesIdle = true)

/-- The settings that requests write are as the checks let them be: the timing settings in their
ranges (R100), and a scan list of at most 24 entries with no channel twice (R82). -/
def Scheduler.SettingsKept (d : Scheduler) : Prop :=
  5 ≤ d.activePeriod ∧ d.activePeriod ≤ 1000 ∧ 20 ≤ d.dozePeriod ∧ d.dozePeriod ≤ 2000
    ∧ d.idleTime ≤ 255 ∧ d.scanList.length ≤ 24 ∧ (d.scanList.map ScanEntry.channel).Nodup

/-! ## Keys -/

/-- Within one suppression group at most one key is PRESSED (R120). -/
def State.GroupsExclusive (s : State) : Prop :=
  ∀ k k' r r' g, s.key k = some r → s.key k' = some r' → r.group = some g → r'.group = some g →
    r.state = .pressed → r'.state = .pressed → k = k'

/-- A channel is listed in at most one key, and no key lists a channel twice (R114, R174). -/
def State.KeyChannelsDistinct (s : State) : Prop :=
  (∀ k r, s.key k = some r → r.channels.Nodup)
    ∧ ∀ k k' r r' c, s.key k = some r → s.key k' = some r' → c ∈ r.channels → c ∈ r'.channels →
      k = k'

/-! ## Requests -/

/-- The CODE of the request that a command stands for (chapter 9, codes). -/
def requestCode : Instr → Option Byte
  | .identify => some 0x01
  | .status => some 0x02
  | .setChannel => some 0x10
  | .getChannel => some 0x11
  | .setKey => some 0x18
  | .clearKey => some 0x19
  | .getKey => some 0x1A
  | .setScan => some 0x20
  | .getScan => some 0x21
  | .setTiming => some 0x28
  | .setEvents => some 0x29
  | .setMode => some 0x2A
  | .calibrate => some 0x30
  | .measure => some 0x31
  | .cancel => some 0x38
  | .restart => some 0x3F
  | .unknownRequest | .settleEnd _ | .halfWindowEnd _ _ | .burstComplete _ _ => none
  | .periodExpiry | .inactivityExpiry | .maxOnExpiry _ | .writeAddress _ | .writeByte _ => none
  | .transactionEnd _ | .readAddress _ | .headRetire | .busTimeout | .powerOnReset => none
  | .pinReset | .resetRelease _ _ | .flagsByteStart => none

/-- The command processor takes the frame `f` of CODE `code` from slot `i` now: no reset is in
progress, held + pending is at most 30, and slot `i` is the earliest FULL slot (R164, R186). -/
def State.Takes (s : State) (code : Byte) (i : SlotId) (f : Frame) : Prop :=
  s.inReset = none ∧ s.load ≤ 30 ∧ s.link.fullOrder.head? = some i ∧ s.link.slot i = .full f
    ∧ f.code = code

/-- The state whose earliest FULL slot, `i`, has returned to EMPTY, and nothing else has changed
(R152, R164). -/
def State.afterTake (s : State) (i : SlotId) : State :=
  { s with link := { s.link.setSlot i .empty with fullOrder := s.link.fullOrder.tail } }

/-- The state in which a body has joined the tail of the queue with the next sequence number, and
nothing else has changed (R131, R133, R136). -/
def State.afterAdmit (s : State) (b : Body) : State :=
  { s with
    queue :=
      { s.queue with
        entries := s.queue.entries ++ [{ seq := s.queue.nextSeq, body := b, read := .queued }]
        nextSeq := s.queue.nextSeq + 1 } }

/-- The state in which the REPLY to a request has joined the tail of the queue (R165). -/
def State.afterReply (s : State) (tag : Byte) (status : Status) (data : ReplyData := .nothing) :
    State :=
  s.afterAdmit (.reply tag status data)

/-! ## Calibration jobs -/

/-- The record of a channel right after a calibration job is created for it (R64). -/
def Channel.jobCreated (ch : Channel) : Channel :=
  { ch with
    slots := ch.slots.map fun sl =>
      { step := sl.step, baseline := none, filtered := none, reseed := false }
    state := .calibrating
    generation := ch.generation + 1
    debounce := 0
    goodRun := 0
    maxOn := none
    lastDelta := none
    note :=
      if ch.state = .pressing ∨ ch.state = .touched ∨ ch.state = .releasing then
        if ch.note = .timeout then .timeout else .reconfig
      else ch.note }

/-- A job right after its creation for a channel (R64, R67; the serial number is
notes/assumptions/5.md). -/
def newJob (serial : Nat) (origin : JobOrigin) (ch : Channel) : Job :=
  { serial := serial
    origin := origin
    phase := match ch.config.windowMode with | .auto => .search | .fixed => .acquire
    lo := 1, hi := 64, acquireSlot := 0, cleanCount := 0, sum := 0, noisyCount := 0, faultRun := 0
    outcome := none }

/-- The state in which a job of origin AUTOMATIC has been created for a channel, before its signal to
the scheduler, and nothing else has changed (R64). -/
def State.withAutoJob (s : State) (c : ChannelNo) : State :=
  { s with
    channels := s.channels.set c (s.chan c).jobCreated
    jobs := s.jobs.set c (some (newJob s.nextJob .automatic (s.chan c)))
    nextJob := s.nextJob + 1 }

/-- An automatic job is due for a channel, its scan-list entry and the mode left aside: it is UNCAL,
has autocal yes and is the subject of no pending MEASURE (R66). -/
def State.autoDue (s : State) (c : ChannelNo) : Prop :=
  (s.chan c).state = .uncal ∧ (s.chan c).config.autocal = true
    ∧ ∀ e ∈ s.table, e.work.measured ≠ some c

/-- The mode is ACTIVE or DOZE. -/
def State.scanningNow (s : State) : Prop := s.sched.mode = .active ∨ s.sched.mode = .doze

/-- The channel has a scan-list entry (R82). -/
def State.listed (s : State) (c : ChannelNo) : Prop := ∃ en ∈ s.sched.scanList, en.channel = c

/-- The channels that the start of scanning asks an automatic job for, in ascending order (R66, R104). -/
def State.dueAtStart (s : State) : List ChannelNo :=
  (List.finRange 24).filter fun c =>
    (s.chan c).state == .uncal && (s.chan c).config.autocal
      && (s.sched.scanList.any fun en => en.channel == c)
      && s.table.all fun e => e.work.measured != some c

/-! ## Cycles and modes -/

/-- The inactivity timer as a start or restart leaves it (R108). -/
def Scheduler.idleStart (d : Scheduler) : InactivityTimer :=
  if d.idleTime = 0 then .stopped else .running (d.idleTime * 1000)

/-- A cycle of a kind that starts now has a burst to make: some item of its lists is dispatched. -/
def State.HasBurst (s : State) (kind : CycleKind) : Prop :=
  ∃ e, ∃ item ∈ s.buildList kind e, (s.judgeItem item).isSome

/-- `t` is `s` with a cycle of a kind started: both marks are clear, an ACTIVE or DOZE cycle restarts the
period timer, and each engine, IDLE before, has been offered the items of its list until one was
dispatched (R84, R85, R89, R94). -/
def State.StartsCycle (s t : State) (kind : CycleKind) : Prop :=
  ∃ engines lists,
    t = { s with
          engines := engines
          sched :=
            { s.sched with
              cycle := some { kind := kind, lists := lists, late := false, startOwed := false }
              periodTimer := match kind with
                | .active => some s.sched.activePeriod
                | .doze => some s.sched.dozePeriod
                | .service => s.sched.periodTimer } }
      ∧ ∀ e,
        let left := (s.buildList kind e).dropWhile fun item => (s.judgeItem item).isNone
        lists.get e = left.tail
          ∧ engines.get e
            = match left.head?.bind s.judgeItem with
              | some r => .settle r 40
              | none => .idle

/-- A channel keeps the end of an ACTIVE cycle from being quiet (R108). -/
def State.busyChannel (s : State) : Prop :=
  ∃ c, (s.chan c).state = .pressing ∨ (s.chan c).state = .touched ∨ (s.chan c).state = .releasing
    ∨ (s.chan c).state = .calibrating

/-- `t` is `s`, an ACTIVE cycle having ended in ACTIVE with its count and its key evaluation, after the
quiet judgement (R92 step 3, R105, R108). -/
def State.QuietJudged (s t : State) : Prop :=
  (s.busyChannel ∨ s.table ≠ [] →
    t = { s with sched := { s.sched with quiet := false, inactivity := s.sched.idleStart } })
  ∧ (¬ s.busyChannel → s.table = [] → s.sched.inactivity ≠ .expired →
    t = { s with sched := { s.sched with quiet := true } })
  ∧ (¬ s.busyChannel → s.table = [] → s.sched.inactivity = .expired →
    t = { s with
          sched :=
            { s.sched with
              mode := .doze, inactivity := .stopped, quiet := false
              periodTimer := some s.sched.dozePeriod }
          queue := s.queue.offer s.table.length (.mode .doze .idleTimeout) })

/-- `t` is `s` with a cycle of the kind that the mode gives started; and, where its lists hold no burst
to make, ended in the same claim, with its count and its key evaluation (R85, R91, R92). -/
def State.RunsCycle (s t : State) : Prop :=
  (s.sched.mode = .active →
    (s.HasBurst .active → s.StartsCycle t .active)
    ∧ (¬ s.HasBurst .active →
      ({ s.evaluateKeys with
          sched :=
            { s.sched with
              cycleCount := s.sched.cycleCount + 1, cycle := none
              periodTimer := some s.sched.activePeriod } } : State).QuietJudged t))
  ∧ (s.sched.mode = .doze →
    (s.HasBurst .doze → s.StartsCycle t .doze)
    ∧ (¬ s.HasBurst .doze →
      t = { s.evaluateKeys with
            sched :=
              { s.sched with
                cycleCount := s.sched.cycleCount + 1, cycle := none
                periodTimer := some s.sched.dozePeriod } }))

/-- The state right after the change from DOZE to ACTIVE, before a cycle starts or is owed: the MODE
event is offered, the channels that DOZE did not scan are reseeded, the inactivity timer starts, and the
note is not quiet (R61, R106). -/
def State.wakened (s : State) (cause : ModeCause) : State :=
  { s with
    channels := Vector.ofFn fun c =>
      if s.sched.scanList.any fun en => en.channel == c && en.doze == false then
        { s.chan c with slots := (s.chan c).slots.map fun sl => { sl with reseed := true } }
      else s.chan c
    sched :=
      { s.sched with mode := .active, inactivity := s.sched.idleStart, quiet := false }
    queue := s.queue.offer s.table.length (.mode .active cause) }

/-- The state right after a change of mode from STOPPED or SERVICE into ACTIVE or DOZE, before the timers
and the cycle: the MODE event is offered, every slot is reseeded, and an automatic job is created for
every channel that is due one, in ascending channel order (R61, R66, R104; the serial numbers are
notes/assumptions/5.md). -/
def State.scanningStarted (s : State) (m : Mode) : State :=
  { s with
    channels := Vector.ofFn fun c =>
      if c ∈ s.dueAtStart then (s.chan c).jobCreated
      else { s.chan c with slots := (s.chan c).slots.map fun sl => { sl with reseed := true } }
    jobs := Vector.ofFn fun c =>
      if c ∈ s.dueAtStart then
        some (newJob (s.nextJob + s.dueAtStart.idxOf c) .automatic (s.chan c))
      else s.job c
    nextJob := s.nextJob + s.dueAtStart.length
    sched := { s.sched with mode := m }
    queue := s.queue.offer s.table.length (.mode m .request) }

/-- `t` is `s` after a change from DOZE to ACTIVE: with a cycle in flight the period timer stops and a
start is owed; with none, and the engines IDLE, an ACTIVE cycle starts at once (R106). -/
def State.LeavesDoze (s t : State) (cause : ModeCause) : Prop :=
  (∀ cy, s.sched.cycle = some cy →
    t = { s.wakened cause with
          sched :=
            { (s.wakened cause).sched with
              cycle := some { cy with startOwed := true }, periodTimer := none } })
  ∧ (s.sched.cycle = none → (∀ e, s.engine e = .idle) → (s.wakened cause).RunsCycle t)

/-- `t` is `s` after the signal of new work (R107, R108): in DOZE the mode becomes ACTIVE with cause
WORK, in ACTIVE the note becomes not quiet, and in STOPPED and SERVICE nothing changes. -/
def State.WorkSignalled (s t : State) : Prop :=
  (s.sched.mode = .doze → s.LeavesDoze t .work)
  ∧ (s.sched.mode = .active → t = { s with sched := { s.sched with quiet := false } })
  ∧ (s.sched.mode = .stopped ∨ s.sched.mode = .service → t = s)

/-- `t` is `s` after the mode effect of a CALIBRATE or MEASURE (R102, R180, R181): in STOPPED, where no
cycle and no burst is in flight (R100), the mode becomes SERVICE with cause WORK and the first SERVICE
cycle starts; in the other modes the work is signalled. -/
def State.TakesWork (s t : State) : Prop :=
  (s.sched.mode = .stopped → s.sched.cycle = none → (∀ e, s.engine e = .idle) →
    ({ s with
        sched := { s.sched with mode := .service }
        queue := s.queue.offer s.table.length (.mode .service .work) } : State).StartsCycle t .service)
  ∧ (s.sched.mode ≠ .stopped → s.WorkSignalled t)

/-! ## Runs of commands -/

/-- The state that a list of commands, run one after the other, leads to. -/
def runAll : List Instr → State → Option State
  | [], s => some s
  | c :: cs, s =>
    match exec c s with
    | .next t => runAll cs t
    | .fault _ => none
    | .refused _ => none

/-- The frames of a transmission: LEN, KIND, SEQ, FLAGS, body and the CRC over them (R162). -/
def sentFrame (kind seq : Byte) (resent more : Bool) (body : List Byte) : List Byte :=
  let covered :=
    [BitVec.ofNat 8 (4 + body.length), kind, seq, (if resent then 1 else 0) + (if more then 2 else 0)]
      ++ body
  covered ++ [crc covered]

/-! ## The lines of the bus -/

/-- The bits of a byte, most significant bit first (R150). -/
def bitsOfByte (b : Byte) : List Bool := (List.range 8).map b.getMsbD

/-- An address byte: the target address, then the direction bit, 1 for read (R150). -/
def addressByte (address : BitVec 7) (read : Bool) : Byte := address ++ BitVec.ofBool read

/-- The host clocks one bit: it sets SDA while SCL is low, and SCL rises (R150). -/
def clockBit (released : Bool) : List LineChange := [.scl false, .sda released, .scl true]

/-- The host clocks a byte, most significant bit first, and releases SDA for the acknowledge bit
(R150). -/
def clockByte (b : Byte) : List LineChange := (bitsOfByte b).flatMap clockBit ++ clockBit true

/-- From both lines high, a START (R150). -/
def startLines : List LineChange := [.sda false]

/-- With SCL high after a byte, a STOP or a repeated START (R150). -/
def endLines : EndKind → List LineChange
  | .stop => clockBit false ++ [.sda true]
  | .repeatedStart => clockBit true ++ [.sda false]

/-- The port at the lines after a STOP, and after a repeated START. -/
def busAfter : EndKind → Bus
  | .stop => { scl := true, sda := true, started := false, role := .off, bits := [] }
  | .repeatedStart => { scl := true, sda := false, started := true, role := .address, bits := [] }

/-- The next step takes a rise of SCL. -/
def State.sclRises (s : State) : Bool :=
  s.pending.isEmpty && (s.lines.head? == some (.scl true)) && !s.bus.scl

/-- `s.Hears bits t`: steps lead from `s` to `t`, and `bits` are the levels of SDA, in order, at the rises
of SCL on the way, as the host samples them (R150). -/
inductive State.Hears : State → List Bool → State → Prop
  | done (s : State) : State.Hears s [] s
  | next {s t u : State} {bits : List Bool} :
      step s = .next t → State.Hears t bits u →
        State.Hears s ((if s.sclRises then [t.sdaLevel] else []) ++ bits) u

/-- The bytes of the frame that a read carries now: the head's, its RESENT and MORE flags as they stand,
or a NONE frame with the last sequence number used (R140, R141, R162). -/
def State.readFrame (s : State) : List Byte :=
  match s.queue.entries with
  | e :: rest =>
    sentFrame e.body.kindCode e.seq (e.read == .resent) (decide (rest ≠ [])) e.body.bytes
  | [] => sentFrame 0x00 (s.queue.nextSeq - 1) false false []

/-! ## The order of a stop -/

/-- An entry is posted: an event is offered, and a COMPLETE, which takes the place of its pending entry,
joins the tail. The number is that of the pending entries (R134, R136). -/
def Queue.receive (x : Queue × Nat) (b : Body) : Queue × Nat :=
  match b with
  | .complete _ _ _ =>
    ({ x.1 with
        entries := x.1.entries ++ [{ seq := x.1.nextSeq, body := b, read := .queued }]
        nextSeq := x.1.nextSeq + 1 }, x.2 - 1)
  | _ => (x.1.offer x.2 b, x.2)

/-- The running jobs of the CALIBRATE with a tag, in ascending channel order. -/
def State.runningOf (s : State) (tag : Byte) : List ChannelNo :=
  (List.finRange 24).filter fun c =>
    match s.job c with
    | some j => j.origin == .request tag
    | none => false

/-- What a stop posts, in order (R80, R110): in ascending channel order the RECAL events of the automatic
jobs, and the COMPLETE of each CALIBRATE entry in the place of the last of its jobs; then the COMPLETE of
each MEASURE entry, oldest first; then the RELEASE events, in ascending key order; then the MODE event. -/
def State.stopPosts (s : State) : List Body :=
  ((List.finRange 24).flatMap fun c =>
      match s.job c with
      | none => []
      | some j =>
        match j.origin with
        | .automatic => [.recal c (.autoCal .aborted (s.chan c).config.windowCode)]
        | .request tag =>
          if (s.runningOf tag).getLast? = some c then
            s.table.filterMap fun e =>
              match e.work with
              | .calibrate subjects results =>
                if e.tag = tag then
                  some
                    (.complete tag .aborted
                      (.calibrate subjects
                        (results ++ (s.runningOf tag).map fun d =>
                          { channel := d, outcome := .aborted,
                            window := (s.chan d).config.windowCode })))
                else none
              | .measure _ _ _ _ => none
          else [])
    ++ (s.table.filterMap fun e =>
      match e.work with
      | .calibrate _ _ => none
      | .measure _ _ _ _ => some (.complete e.tag .aborted e.work))
    ++ ((List.finRange 16).filterMap fun k =>
      match s.key k with
      | some r => if r.state = .pressed then some (.release k .stopped) else none
      | none => none)
    ++ [.mode .stopped .request]

/-! ## What a SET_CHANNEL payload spells -/

/-- The configuration that 29 bytes of payload spell (chapter 9, request payloads): the bytes of hop
steps at or beyond the hop-list length are ignored (R163). -/
def spelledConfig (p : List Byte) : ChannelConfig :=
  let one := fun i => (p.getD i 0).toNat
  let two := fun i => 256 * (p.getD i 0).toNat + (p.getD (i + 1) 0).toNat
  { enabled := decide (one 1 = 1)
    hopList := (List.range (one 2)).map fun i => one (3 + i)
    windowMode := if one 7 = 0 then .fixed else .auto
    windowCode := one 8, target := two 9, tolerance := two 11, touchThreshold := two 13
    hysteresis := two 15, pressDebounce := one 17, releaseDebounce := one 18, filterDepth := one 19
    noiseLimit := two 20, noiseRun := one 22, driftInterval := one 23, negThreshold := two 24
    negRun := one 26, maxOnTime := one 27, autocal := decide (one 28 = 1) }

/-- The ranges of the eighteen fields (R20). -/
def ChannelConfig.InRange (g : ChannelConfig) : Prop :=
  1 ≤ g.hopList.length ∧ g.hopList.length ≤ 4 ∧ (∀ h ∈ g.hopList, h ≤ 7)
    ∧ 1 ≤ g.windowCode ∧ g.windowCode ≤ 64 ∧ 256 ≤ g.target ∧ g.target ≤ 15000
    ∧ 16 ≤ g.tolerance ∧ g.tolerance ≤ 4000 ∧ 1 ≤ g.touchThreshold ∧ g.touchThreshold ≤ 2047
    ∧ g.hysteresis < g.touchThreshold ∧ 1 ≤ g.pressDebounce ∧ g.pressDebounce ≤ 8
    ∧ 1 ≤ g.releaseDebounce ∧ g.releaseDebounce ≤ 8 ∧ g.filterDepth ≤ 3 ∧ 1 ≤ g.noiseLimit
    ∧ g.noiseLimit ≤ 4095 ∧ 1 ≤ g.noiseRun ∧ g.noiseRun ≤ 15 ∧ g.driftInterval ≤ 255
    ∧ 1 ≤ g.negThreshold ∧ g.negThreshold ≤ 2047 ∧ 1 ≤ g.negRun ∧ g.negRun ≤ 15 ∧ g.maxOnTime ≤ 240

/-- A SET_CHANNEL payload of 29 bytes whose every field is in range, its yes/no and enumerated bytes
among the listed codes (R20, R163, R172). -/
def SpellsConfig (p : List Byte) : Prop :=
  p.length = 29 ∧ (p.getD 0 0).toNat ≤ 23 ∧ (p.getD 1 0).toNat ≤ 1 ∧ (p.getD 7 0).toNat ≤ 1
    ∧ (p.getD 28 0).toNat ≤ 1 ∧ (spelledConfig p).InRange

/-! ## What requests come to -/

/-- The payload length is one that the length check accepts for the request (R167). -/
def acceptsLength (c : Instr) (p : List Byte) : Prop :=
  match c with
  | .identify | .status | .getScan | .restart => p.length = 0
  | .getChannel | .clearKey | .getKey | .setEvents | .setMode | .cancel => p.length = 1
  | .measure => p.length = 3
  | .setTiming => p.length = 5
  | .setChannel => p.length = 29
  | .setKey => 6 ≤ p.length ∧ p.length ≤ 13 ∧ ∃ n ∈ p[4]?, p.length = 5 + n.toNat
  | .setScan => 1 ≤ p.length ∧ p.length ≤ 59 ∧ ∃ n ∈ p[0]?, p.length = 1 + 2 * n.toNat
  | .calibrate => 1 ≤ p.length ∧ p.length ≤ 25 ∧ ∃ n ∈ p[0]?, p.length = 1 + n.toNat
  | .unknownRequest | .settleEnd _ | .halfWindowEnd _ _ | .burstComplete _ _ => True
  | .periodExpiry | .inactivityExpiry | .maxOnExpiry _ | .writeAddress _ | .writeByte _ => True
  | .transactionEnd _ | .readAddress _ | .headRetire | .busTimeout | .powerOnReset => True
  | .pinReset | .resetRelease _ _ | .flagsByteStart => True

/-- The part has every reset value, with the address, the cause and the restart tag of the reset, and
the model's own fields and the levels of the bus lines kept; the port waits for the next START (R151,
R184, R186; notes/assumptions/9.md). -/
def State.afterResetOf (s : State) (address : BitVec 7) (cause : ResetCause) (tag : Option Byte) :
    State :=
  { State.reset with
    pending := s.pending
    nextJob := s.nextJob
    freeCount := s.freeCount
    queue :=
      { entries := [{ seq := 0, body := .ready cause 3 tag, read := .queued }], nextSeq := 1,
        lost := 0, mask := 0xFF }
    link := { State.reset.link with address := address }
    bus := { s.bus with started := false, role := .off, bits := [] }
    lines := s.lines
    lastCause := cause
    inReset := none }

/-- No automatic job is due for the channel now (R34, R66). -/
def State.NoAutoJob (s : State) (c : ChannelNo) : Prop :=
  (s.chan c).state ≠ .uncal ∨ (s.chan c).config.autocal = false ∨ s.inScanList c = false
    ∨ (s.sched.mode ≠ .active ∧ s.sched.mode ≠ .doze) ∨ s.measurePending c = true

end Sys2Proof.Machine
end

