-- ==== Sys2Proof/Certificates/Slice0/Obligations.lean ====
section
/-! DEFINITION. The statements for the provers. Each says which rule of spec/ it formalises, or which
log entry's choice it states. `s.Takes code i f` says that the command processor takes the frame `f`
of slot `i` now; `s.afterTake i`, `s.afterReply …` and `s.afterAdmit …` are the states after the
taking, after a REPLY and after an admission, each with every other part of the state unchanged
(Sys2Proof/Safety.lean). An equation `exec c s = .next t` is therefore a result and a frame at once:
whatever `t` does not name is as it was in `s`. -/

open Sys2Proof Sys2Proof.Machine

/-! ## The queue of commands -/

/-- A step runs the command at the front of the queue, with the queue's rest. -/
def Obligations.StepRunsFrontCommand : Prop :=
  ∀ (c : Instr) (rest : List Instr) (s : State),
    step { s with pending := c :: rest } = exec c { s with pending := rest }

/-- On an empty queue a step takes the next change at the lines of the bus, which reaches the port at the
lines, its bus timeout (R158: 25 ms from an edge of SCL within a transaction) and the queue of commands,
and nothing else; where none waits, a step is one 1 ms tick and nothing else: a running timer that counts
the tick loses one ms, down to its last, and a stopped one stays stopped (the model's choice,
notes/assumptions/3.md and 27.md). -/
def Obligations.EmptyQueueIsOneTick : Prop :=
  (∀ (s : State) (x : LineChange) (rest : List LineChange), s.pending = [] → s.lines = x :: rest →
    ∃ t, step s = .next t ∧ t.lines = rest
      ∧ (∀ high, x = .scl high → t.bus.scl = high ∧ t.bus.sda = s.bus.sda)
      ∧ (∀ released, x = .sda released → t.bus.sda = released ∧ t.bus.scl = s.bus.scl)
      ∧ t.link.busTimer
        = (if s.inReset = none ∧ x = .scl (!s.bus.scl) ∧ s.link.transaction ≠ .none then some 25
          else s.link.busTimer)
      ∧ { t with
          pending := [], bus := s.bus, lines := s.lines
          link := { t.link with busTimer := s.link.busTimer } } = s)
  ∧ ∀ s : State, s.pending = [] → s.lines = [] →
    ∃ t, step s = .next t
      ∧ (∀ c, t.chan c = { s.chan c with maxOn := (s.chan c).maxOn.map fun n => max (n - 1) (min n 1) })
      ∧ t.sched =
          { s.sched with
            periodTimer := s.sched.periodTimer.map fun n => max (n - 1) (min n 1)
            inactivity := match s.sched.inactivity with
              | .running n => .running (max (n - 1) (min n 1))
              | .stopped => .stopped
              | .expired => .expired }
      ∧ t.link =
          { s.link with busTimer := s.link.busTimer.map fun n => max (n - 1) (min n 1) }
      ∧ { t with channels := s.channels, sched := s.sched, link := s.link } = s

/-- No command stops the part: every command, in every state, answers a next state, and leaves the
commands that wait as they were. -/
def Obligations.EveryCommandAnswers : Prop :=
  ∀ (c : Instr) (s : State), ∃ t, exec c s = .next t ∧ t.pending = s.pending

/-! ## Taking a request, and refusing one (R164 to R167) -/

/-- A command that the state cannot raise is disregarded (the model's choice, notes/assumptions/1.md): a
request that the command processor may not take now (R164: held + pending above 30, a reset in progress,
no FULL slot) or whose CODE is not that of the earliest FULL slot; the end of a part that an engine is
not in; the expiry of a timer that is not running; a byte event outside its transaction; a second
address within a transaction; a release out of reset. -/
def Obligations.CommandsOutOfPlaceAreDisregarded : Prop :=
  (∀ (c : Instr) (code : Byte) (s : State), requestCode c = some code →
     (∀ i f, ¬ s.Takes code i f) → exec c s = .next s)
  ∧ (∀ s : State,
      (∀ e, (∀ r timer, s.engine e ≠ .settle r timer) → exec (.settleEnd e) s = .next s)
      ∧ (∀ e n, (∀ r timer counter, s.engine e ≠ .half1 r timer counter) →
          exec (.halfWindowEnd e n) s = .next s)
      ∧ (∀ e n, (∀ r timer counter c1, s.engine e ≠ .half2 r timer counter c1) →
          exec (.burstComplete e n) s = .next s)
      ∧ (s.sched.periodTimer = none → exec .periodExpiry s = .next s)
      ∧ ((∀ ms, s.sched.inactivity ≠ .running ms) → exec .inactivityExpiry s = .next s)
      ∧ (∀ n, (∀ c : ChannelNo, c.val = n → (s.chan c).maxOn = none) →
          exec (.maxOnExpiry n) s = .next s)
      ∧ (∀ a, s.link.transaction ≠ .none →
          exec (.writeAddress a) s = .next s ∧ exec (.readAddress a) s = .next s)
      ∧ ((∀ tr, s.link.transaction ≠ .read tr) →
          exec .flagsByteStart s = .next s ∧ exec .headRetire s = .next s)
      ∧ (∀ tr b, s.link.transaction = .read tr → exec (.writeByte b) s = .next s)
      ∧ (∀ b, s.link.transaction = .none →
          exec (.writeByte b) s = .next { s with link := { s.link with ack := false } })
      ∧ (∀ a1 a0, s.inReset = none → exec (.resetRelease a1 a0) s = .next s))

/-- R165: a request whose last entry in the queue is a REPLY with a status other than OK and ACCEPTED
has changed nothing but its slot and the queue's tail. -/
def Obligations.RefusedRequestChangesNothing : Prop :=
  ∀ (c : Instr) (code : Byte) (s t : State) (i : SlotId) (f : Frame) (tag : Byte)
    (status : Status) (data : ReplyData),
    requestCode c = some code → s.Takes code i f → exec c s = .next t →
    (t.queue.entries.getLast?.map Entry.body) = some (.reply tag status data) →
    status ≠ .ok → status ≠ .accepted →
      tag = f.tag ∧ data = .nothing ∧ t = (s.afterTake i).afterReply f.tag status

/-- R165: a request that is taken, RESTART apart, is answered by exactly one REPLY, which carries its
TAG, is the last entry of its claim, and stands behind every other entry. -/
def Obligations.EachRequestAnsweredOnce : Prop :=
  ∀ (c : Instr) (code : Byte) (s t : State) (i : SlotId) (f : Frame),
    (requestCode c = some code ∨ (c = .unknownRequest ∧ requestCodes.contains code = false)) →
    c ≠ .restart → s.Takes code i f → exec c s = .next t →
      (∃ before status data, t.queue.entries.map Entry.body = before ++ [.reply f.tag status data])
        ∧ (t.queue.entries.countP fun e => match e.body with | .reply _ _ _ => true | _ => false)
          = (s.queue.entries.countP fun e => match e.body with | .reply _ _ _ => true | _ => false)
            + 1

/-- R166, R167, steps 1 and 2: a CODE that is none of the sixteen is answered BADCODE, and a payload length
that is not accepted for its CODE is answered BADLEN; nothing else changes. -/
def Obligations.EarliestChecksRefuse : Prop :=
  (∀ (s : State) (i : SlotId) (f : Frame), s.Takes f.code i f →
     f.code ∉ [0x01#8, 0x02, 0x10, 0x11, 0x18, 0x19, 0x1A, 0x20, 0x21, 0x28, 0x29, 0x2A, 0x30, 0x31,
       0x38, 0x3F] →
       exec .unknownRequest s = .next ((s.afterTake i).afterReply f.tag .badCode))
  ∧ (∀ (c : Instr) (code : Byte) (s : State) (i : SlotId) (f : Frame),
      requestCode c = some code → s.Takes code i f → ¬ acceptsLength c f.payload →
        exec c s = .next ((s.afterTake i).afterReply f.tag .badLen))

/-! ## The requests -/

/-- R170: IDENTIFY is answered with part code, revision, address and capacities, and changes nothing. -/
def Obligations.IdentifyReportsThePart : Prop :=
  ∀ (s : State) (i : SlotId) (f : Frame), s.Takes 0x01 i f → f.payload = [] →
    exec .identify s
        = .next ((s.afterTake i).afterReply f.tag .ok (.identity s.link.address))
      ∧ (Body.reply f.tag .ok (.identity s.link.address)).bytes
        = [f.tag, 0x00, 0x24, 3, s.link.address.setWidth 8, 24, 16, 32, 4]

/-- R171: STATUS is answered with seven values as they stand before its own REPLY, and changes
nothing. -/
def Obligations.StatusReportsSevenValues : Prop :=
  ∀ (s : State) (i : SlotId) (f : Frame), s.Takes 0x02 i f → f.payload = [] →
    ∃ data, exec .status s = .next ((s.afterTake i).afterReply f.tag .ok data)
      ∧ data.bytes
        = [s.sched.mode.code, s.lastCause.code, BitVec.ofNat 8 s.queue.entries.length,
            BitVec.ofNat 8 s.table.length, BitVec.ofNat 8 s.queue.lost,
            BitVec.ofNat 8 (s.sched.overruns / 256), BitVec.ofNat 8 s.sched.overruns,
            s.sched.cycleCount.extractLsb' 24 8, s.sched.cycleCount.extractLsb' 16 8,
            s.sched.cycleCount.extractLsb' 8 8, s.sched.cycleCount.extractLsb' 0 8]

/-- R20, R30, R163, R172: a SET_CHANNEL whose 29 bytes of payload hold a value out of its range is answered
RANGE and changes nothing. One whose every field is in range, whatever the hop-step bytes at or beyond the
hop-list length hold, on a channel that is neither CALIBRATING nor measured, stores the configuration
with the effect of R30 to R33 and is answered OK; on a CALIBRATING channel or one with a pending MEASURE it
is answered BUSY and changes nothing. The automatic job of R34 is the subject of
`SetChannelStartsAutomaticJob`. -/
def Obligations.SetChannelStoresConfiguration : Prop :=
  ∀ (s : State) (i : SlotId) (f : Frame), s.Takes 0x10 i f → f.payload.length = 29 →
    let g := spelledConfig f.payload
    (¬ SpellsConfig f.payload →
      exec .setChannel s = .next ((s.afterTake i).afterReply f.tag .range))
    ∧ ∀ c : ChannelNo, c.val = (f.payload.getD 0 0).toNat → SpellsConfig f.payload →
      if (s.chan c).state = .calibrating ∨ ∃ e ∈ s.table, e.work.measured = some c then
        exec .setChannel s = .next ((s.afterTake i).afterReply f.tag .busy)
      else
        (s.setChan c ((s.chan c).configure g)).NoAutoJob c →
          exec .setChannel s
            = .next (((s.afterTake i).setChan c ((s.chan c).configure g)).afterReply f.tag .ok)

/-- R34, R64, R107: a SET_CHANNEL taken in ACTIVE or DOZE that leaves a scan-list channel UNCAL with autocal
yes creates an automatic job: the channel becomes CALIBRATING with the generation moved on once more. The
creation is signalled as work: in ACTIVE the note becomes not quiet, and in DOZE the mode becomes ACTIVE
with cause WORK. The REPLY is OK and stands behind the MODE event. That a job carries a serial number of
the model's own is notes/assumptions/5.md. -/
def Obligations.SetChannelStartsAutomaticJob : Prop :=
  ∀ (s : State) (i : SlotId) (f : Frame) (c : ChannelNo),
    s.Takes 0x10 i f → c.val = (f.payload.getD 0 0).toNat → SpellsConfig f.payload →
    (s.chan c).state ≠ .calibrating → (∀ e ∈ s.table, e.work.measured ≠ some c) →
    ((s.chan c).configure (spelledConfig f.payload)).state = .uncal →
    (spelledConfig f.payload).autocal = true → s.listed c → s.scanningNow →
      ∃ v,
        (((s.afterTake i).setChan c
          ((s.chan c).configure (spelledConfig f.payload))).withAutoJob c).WorkSignalled v
          ∧ exec .setChannel s = .next (v.afterReply f.tag .ok)

/-- R30 to R33: what a SET_CHANNEL does to the record, chosen by comparing the configurations: a
measurement change or a disable discards the learned state, an enable opens the channel, and any other
change stores the fields and keeps all else. -/
def Obligations.ConfigureFollowsComparison : Prop :=
  ∀ (ch : Channel) (g : ChannelConfig), ch.slots.map Slot.step = ch.config.hopList →
    if g.hopList ≠ ch.config.hopList ∨ g.windowMode ≠ ch.config.windowMode
        ∨ g.windowCode ≠ ch.config.windowCode ∨ g.target ≠ ch.config.target
        ∨ g.tolerance ≠ ch.config.tolerance ∨ (ch.config.enabled = true ∧ g.enabled = false) then
      ch.configure g
        = { config := g
            slots := g.hopList.map fun h =>
              { step := h, baseline := none, filtered := none, reseed := false }
            state := if g.enabled then .uncal else .off
            generation := ch.generation + 1
            current := 0
            debounce := 0
            noisyRun := 0
            noiseOn := false
            faultRun := 0
            goodRun := 0
            driftCount := 0
            negRun := 0
            maxOn := none
            lastRaw := ch.lastRaw
            lastNoise := ch.lastNoise
            lastDelta := none
            note :=
              if ch.state = .pressing ∨ ch.state = .touched ∨ ch.state = .releasing then
                if ch.note = .timeout then .timeout else .reconfig
              else ch.note }
    else if ch.config.enabled = false ∧ g.enabled = true then
      ch.configure g = { ch with config := g, state := .uncal }
    else ch.configure g = { ch with config := g }

/-- R36, R173: GET_CHANNEL is answered with the record as it stands and changes no part of it, in the layout
of chapter 9: the 28 bytes of the configuration, the live fields, and seven bytes for each slot. The
model's counter of free values moves on (notes/assumptions/7.md): nothing is said of the bytes of hop steps
beyond the hop list and of the five high bits of the flag bytes. A channel number above 23 is refused with
RANGE. -/
def Obligations.GetChannelReportsTheRecord : Prop :=
  ∀ (s : State) (i : SlotId) (f : Frame) (b : Byte), s.Takes 0x11 i f → f.payload = [b] →
    (24 ≤ b.toNat → exec .getChannel s = .next ((s.afterTake i).afterReply f.tag .range))
      ∧ ∀ c : ChannelNo, c.val = b.toNat →
        let ch := s.chan c
        let one : Nat → Byte := fun n => BitVec.ofNat 8 n
        let two : Nat → List Byte := fun n => [one (n / 256), one n]
        let three : Nat → List Byte := fun n => [one (n / 65536), one (n / 256), one n]
        let yes : Bool → Byte := fun b => if b then 1 else 0
        let auto : Byte := match ch.config.windowMode with | .fixed => 0 | .auto => 1
        let state : Byte := match ch.state with
          | .off => 0 | .uncal => 1 | .calibrating => 2 | .idle => 3
          | .pressing => 4 | .touched => 5 | .releasing => 6 | .fault => 7
        let note : Byte := match ch.note with | .none => 0 | .timeout => 1 | .reconfig => 2
        let delta := BitVec.ofInt 16 (ch.lastDelta.getD 0)
        exec .getChannel s
            = .next
              { (s.afterTake i).afterReply f.tag .ok (.channel ch s.freeCount) with
                freeCount := s.freeCount + 9 }
          ∧ ∃ (hops : List Byte) (live : Byte) (groups : List (List Byte)),
            (Body.reply f.tag .ok (.channel ch s.freeCount)).bytes
                = [f.tag, 0x00]
                  ++ [yes ch.config.enabled, one ch.config.hopList.length] ++ hops
                  ++ [auto, one ch.config.windowCode]
                  ++ two ch.config.target ++ two ch.config.tolerance
                  ++ two ch.config.touchThreshold ++ two ch.config.hysteresis
                  ++ [one ch.config.pressDebounce, one ch.config.releaseDebounce,
                      one ch.config.filterDepth]
                  ++ two ch.config.noiseLimit
                  ++ [one ch.config.noiseRun, one ch.config.driftInterval]
                  ++ two ch.config.negThreshold
                  ++ [one ch.config.negRun, one ch.config.maxOnTime, yes ch.config.autocal]
                  ++ [state, ch.generation, one ch.current, live]
                  ++ two ch.lastRaw ++ two ch.lastNoise
                  ++ [delta.extractLsb' 8 8, delta.extractLsb' 0 8]
                  ++ [one ch.debounce, one ch.noisyRun, one ch.faultRun, one ch.goodRun,
                      one ch.driftCount, one ch.negRun]
                  ++ two (ch.maxOn.getD 0)
                  ++ [note] ++ groups.flatten
              ∧ hops.length = 4
              ∧ (∀ (j : Nat) (h : Nat), j < 4 → ch.config.hopList[j]? = some h →
                  hops[j]? = some (one h))
              ∧ live.getLsbD 0 = ch.noiseOn ∧ live.getLsbD 1 = ch.lastDelta.isSome
              ∧ live.getLsbD 2 = ch.maxOn.isSome
              ∧ groups.length = ch.slots.length
              ∧ ∀ (j : Nat) (sl : Slot), ch.slots[j]? = some sl →
                ∃ flags : Byte,
                  groups[j]?
                      = some (flags :: three (sl.baseline.getD 0) ++ three (sl.filtered.getD 0))
                    ∧ flags.getLsbD 0 = sl.baseline.isSome ∧ flags.getLsbD 1 = sl.filtered.isSome
                    ∧ flags.getLsbD 2 = sl.reseed

/-- R115, R163, R174: a SET_KEY of an accepted length that holds a key above 15, a kind byte above 1, a
group above 4, for a SLIDER a slide step above 32, a channel count that does not suit the kind, or a
channel above 23, is answered RANGE and changes nothing. One in range taken in STOPPED replaces the key's
record whole, RELEASED and with no last reported position, unless it lists a channel twice or one that
another defined key lists, which is CONFLICT; outside STOPPED it is STATE. -/
def Obligations.SetKeyReplacesTheRecord : Prop :=
  (∀ (s : State) (i : SlotId) (f : Frame), s.Takes 0x18 i f → acceptsLength .setKey f.payload →
     let one := fun j => (f.payload.getD j 0).toNat
     (15 < one 0 ∨ 1 < one 1 ∨ 4 < one 2 ∨ (one 1 = 1 ∧ 32 < one 3) ∨ (one 1 = 0 ∧ one 4 ≠ 1)
         ∨ (one 1 = 1 ∧ one 4 < 2) ∨ ∃ b ∈ f.payload.drop 5, 23 < b.toNat) →
       exec .setKey s = .next ((s.afterTake i).afterReply f.tag .range))
  ∧ ∀ (s : State) (i : SlotId) (f : Frame) (k : KeyNo) (kind : KeyKind) (group step : Byte)
    (cs : List ChannelNo),
    s.Takes 0x18 i f →
    f.payload
      = [BitVec.ofNat 8 k.val, kind.code, group, step, BitVec.ofNat 8 cs.length]
        ++ cs.map (fun c : ChannelNo => BitVec.ofNat 8 c.val) →
    group.toNat ≤ 4 →
    (match kind with
      | .button => cs.length = 1
      | .slider => 2 ≤ cs.length ∧ cs.length ≤ 8 ∧ step.toNat ≤ 32) →
      (s.sched.mode ≠ .stopped →
        exec .setKey s = .next ((s.afterTake i).afterReply f.tag .state))
      ∧ (s.sched.mode = .stopped →
        (¬ cs.Nodup ∨ ∃ k' r c, k' ≠ k ∧ s.key k' = some r ∧ c ∈ cs ∧ c ∈ r.channels) →
          exec .setKey s = .next ((s.afterTake i).afterReply f.tag .conflict))
      ∧ (s.sched.mode = .stopped → cs.Nodup →
        (∀ k' r c, k' ≠ k → s.key k' = some r → c ∈ cs → c ∉ r.channels) →
          exec .setKey s
            = .next
              (((s.afterTake i).setKeyRecord k
                (some
                  { kind := kind
                    channels := cs
                    group := if group = 0 then none else some group.toNat
                    slideStep := match kind with
                      | .button => none
                      | .slider => some (if step = 0 then 4 else step.toNat)
                    state := .released
                    lastPosition := none })).afterReply f.tag .ok))

/-- R175: CLEAR_KEY and GET_KEY. A key number above 15 is RANGE for both; CLEAR_KEY is STATE outside
STOPPED, and otherwise makes the key undefined; GET_KEY reports the record in the layout of chapter 9,
4 bytes for an undefined key and 11 and its channel count for a defined one, and changes nothing. -/
def Obligations.ClearKeyAndGetKey : Prop :=
  ∀ (s : State) (i : SlotId) (f : Frame) (b : Byte), f.payload = [b] →
    (s.Takes 0x19 i f →
      (16 ≤ b.toNat → exec .clearKey s = .next ((s.afterTake i).afterReply f.tag .range))
        ∧ ∀ k : KeyNo, k.val = b.toNat →
          exec .clearKey s
            = .next
              (if s.sched.mode = .stopped then
                ((s.afterTake i).setKeyRecord k none).afterReply f.tag .ok
              else (s.afterTake i).afterReply f.tag .state))
      ∧ (s.Takes 0x1A i f →
        (16 ≤ b.toNat → exec .getKey s = .next ((s.afterTake i).afterReply f.tag .range))
          ∧ ∀ k : KeyNo, k.val = b.toNat →
            exec .getKey s = .next ((s.afterTake i).afterReply f.tag .ok (.key k (s.key k)))
              ∧ (Body.reply f.tag .ok (.key k (s.key k))).bytes
                = match s.key k with
                  | none => [f.tag, 0x00, BitVec.ofNat 8 k.val, 0]
                  | some r =>
                    [f.tag, 0x00, BitVec.ofNat 8 k.val, 1, match r.kind with | .button => 0 | .slider => 1,
                      BitVec.ofNat 8 (r.group.getD 0), BitVec.ofNat 8 (r.slideStep.getD 0),
                      match r.state with | .released => 0 | .pressed => 1,
                      if r.lastPosition.isSome then 1 else 0, BitVec.ofNat 8 (r.lastPosition.getD 0),
                      BitVec.ofNat 8 r.channels.length]
                      ++ r.channels.map (fun c : ChannelNo => BitVec.ofNat 8 c.val))

/-- R176: SET_SCAN and GET_SCAN. A count above 24, a channel above 23 or a doze byte above 1 is RANGE;
then STATE outside STOPPED; then CONFLICT for a channel in two entries; otherwise the list is replaced
whole, in its order. GET_SCAN reports the list. -/
def Obligations.SetScanAndGetScan : Prop :=
  ∀ (s : State) (i : SlotId) (f : Frame),
    (∀ (n : Nat) (rest : List Byte), s.Takes 0x20 i f → n ≤ 29 → rest.length = 2 * n →
      f.payload = BitVec.ofNat 8 n :: rest →
      (24 < n ∨ ∃ j, j < n ∧ (24 ≤ (rest.getD (2 * j) 0).toNat ∨ 1 < (rest.getD (2 * j + 1) 0).toNat)) →
        exec .setScan s = .next ((s.afterTake i).afterReply f.tag .range))
      ∧ (∀ es : List ScanEntry, s.Takes 0x20 i f → es.length ≤ 24 →
        f.payload
          = BitVec.ofNat 8 es.length
            :: es.flatMap (fun e => [BitVec.ofNat 8 e.channel.val, if e.doze then 1 else 0]) →
          exec .setScan s
            = .next
              (if s.sched.mode ≠ .stopped then (s.afterTake i).afterReply f.tag .state
              else if ¬ (es.map ScanEntry.channel).Nodup then
                (s.afterTake i).afterReply f.tag .conflict
              else
                { (s.afterTake i).afterReply f.tag .ok with
                  sched := { s.sched with scanList := es } }))
      ∧ (s.Takes 0x21 i f → f.payload = [] →
        exec .getScan s = .next ((s.afterTake i).afterReply f.tag .ok (.scanList s.sched.scanList))
          ∧ (ReplyData.scanList s.sched.scanList).bytes
            = BitVec.ofNat 8 s.sched.scanList.length
              :: s.sched.scanList.flatMap
                (fun e => [BitVec.ofNat 8 e.channel.val, if e.doze then 1 else 0]))

/-- R177: SET_TIMING replaces the three settings and touches no timer, or is RANGE; SET_EVENTS replaces
the mask whole, for every value of its byte. Neither posts an event. -/
def Obligations.SetTimingAndSetEvents : Prop :=
  ∀ (s : State) (i : SlotId) (f : Frame),
    (∀ a1 a0 d1 d0 idle : Byte, s.Takes 0x28 i f → f.payload = [a1, a0, d1, d0, idle] →
      exec .setTiming s
        = .next
          (if 5 ≤ (a1 ++ a0).toNat ∧ (a1 ++ a0).toNat ≤ 1000 ∧ 20 ≤ (d1 ++ d0).toNat
              ∧ (d1 ++ d0).toNat ≤ 2000 then
            { (s.afterTake i).afterReply f.tag .ok with
              sched :=
                { s.sched with
                  activePeriod := (a1 ++ a0).toNat, dozePeriod := (d1 ++ d0).toNat,
                  idleTime := idle.toNat } }
          else (s.afterTake i).afterReply f.tag .range))
      ∧ ∀ m : Byte, s.Takes 0x29 i f → f.payload = [m] →
        exec .setEvents s
          = .next (({ s with queue := { s.queue with mask := m } }.afterTake i).afterReply f.tag .ok)

/-- R102, R178: SET_MODE refuses a target that is SERVICE or no mode with RANGE, and DOZE in SERVICE with
STATE; a target equal to the mode in force is answered OK. None of these changes anything else. -/
def Obligations.SetModeRefusesOrKeeps : Prop :=
  ∀ (s : State) (i : SlotId) (f : Frame) (b : Byte), s.Takes 0x2A i f → f.payload = [b] →
    (b ≠ 0 → b ≠ 2 → b ≠ 3 →
      exec .setMode s = .next ((s.afterTake i).afterReply f.tag .range))
      ∧ (b = 3 → s.sched.mode = .service →
        exec .setMode s = .next ((s.afterTake i).afterReply f.tag .state))
      ∧ (b = s.sched.mode.code → s.sched.mode ≠ .service →
        exec .setMode s = .next ((s.afterTake i).afterReply f.tag .ok))

/-- R61, R66, R104, R105, R106: what SET_MODE changes. The start of scanning, from STOPPED or SERVICE: the
MODE event is offered, every slot is reseeded, and an automatic job is created for every scan-list
channel that is due one. Into ACTIVE the inactivity timer starts and the note is not quiet; with a SERVICE
cycle in flight a start is owed, and with none, the engines IDLE, the first ACTIVE cycle starts at once.
Into DOZE the period timer starts with the doze period and no cycle starts, unless an automatic job was
created, which is work and leads on into ACTIVE in the same claim. ACTIVE into DOZE: the inactivity timer
stops and the note is not quiet; with no cycle in flight the period timer restarts with the doze period,
and with one it stops and the marks are cleared. DOZE into ACTIVE is as R106 gives, with a cycle in flight
and with none. The REPLY stands behind every MODE event. The serial numbers of jobs and the order of
creation and mode change are notes/assumptions/5.md and 14.md. -/
def Obligations.SetModeMakesItsChange : Prop :=
  ∀ (s : State) (i : SlotId) (f : Frame), s.Takes 0x2A i f →
    let active := (s.afterTake i).scanningStarted .active
    let into := { active with
      sched := { active.sched with inactivity := s.sched.idleStart, quiet := false } }
    let doze := (s.afterTake i).scanningStarted .doze
    let dozing := { doze with
      sched := { doze.sched with periodTimer := some s.sched.dozePeriod } }
    (f.payload = [2] → s.sched.mode = .stopped ∨ s.sched.mode = .service →
      (∀ cy, s.sched.cycle = some cy →
        exec .setMode s
          = .next
            ({ into with
                sched := { into.sched with cycle := some { cy with startOwed := true } }
              }.afterReply f.tag .ok))
      ∧ (s.sched.cycle = none → (∀ e, s.engine e = .idle) →
        ∃ t, State.RunsCycle into t ∧ exec .setMode s = .next (t.afterReply f.tag .ok)))
    ∧ (f.payload = [3] → s.sched.mode = .stopped →
      (s.dueAtStart = [] → exec .setMode s = .next (dozing.afterReply f.tag .ok))
      ∧ (s.dueAtStart ≠ [] →
        ∃ t, State.LeavesDoze dozing t .work ∧ exec .setMode s = .next (t.afterReply f.tag .ok)))
    ∧ (f.payload = [3] → s.sched.mode = .active → s.sched.cycle = none →
      exec .setMode s
        = .next
          ({ s.afterTake i with
              sched :=
                { s.sched with
                  mode := .doze, inactivity := .stopped, quiet := false,
                  periodTimer := some s.sched.dozePeriod }
              queue := s.queue.offer s.table.length (.mode .doze .request) }.afterReply f.tag .ok))
    ∧ (∀ cy, f.payload = [3] → s.sched.mode = .active → s.sched.cycle = some cy →
      exec .setMode s
        = .next
          ({ s.afterTake i with
              sched :=
                { s.sched with
                  mode := .doze, inactivity := .stopped, quiet := false, periodTimer := none,
                  cycle := some { cy with late := false, startOwed := false } }
              queue := s.queue.offer s.table.length (.mode .doze .request) }.afterReply f.tag .ok))
    ∧ (f.payload = [2] → s.sched.mode = .doze →
      ∃ t, (s.afterTake i).LeavesDoze t .request ∧ exec .setMode s = .next (t.afterReply f.tag .ok))

/-- R16, R38, R44, R62, R80, R98, R110, R127: a SET_MODE STOPPED taken in SERVICE, ACTIVE or DOZE. `w` is the
state that the stop finds at the other blocks: the scheduler has taken it, and the bursts that complete in
its instant, which are a free value (notes/assumptions/26.md), have been delivered; where no engine is in
its second half-window, none has. The stop leaves no burst, no cycle, no job, no pending entry, no touch
and no pressed key, both timers stopped, and all else as in `w`; its entries join the queue in the order
of the rule, the REPLY with status OK last. A SCAN sample delivered in that instant is applied with its
events, but wakes nothing and starts no job: a FAULT exit leaves the channel UNCAL with its generation. -/
def Obligations.StopLeavesNothingRunning : Prop :=
  (∀ (s : State) (i : SlotId) (f : Frame), s.WorkKept → s.Takes 0x2A i f → f.payload = [0] →
     s.sched.mode ≠ .stopped →
       let halted := { s.afterTake i with
         sched :=
           { s.sched with
             mode := .stopped, cycle := none, periodTimer := none, inactivity := .stopped,
             quiet := false } }
       let w := (Config.stopMeets s.freeCount).foldl State.completeInStop halted
       ∃ t, exec .setMode s = .next t
         ∧ t.engines = ⟨.idle, .idle, .idle, .idle⟩ ∧ (∀ c, t.job c = none) ∧ t.table = []
         ∧ (∀ c, t.chan c
             = match (w.chan c).state with
               | .calibrating =>
                 { w.chan c with
                   slots := (w.chan c).slots.map fun sl =>
                     { step := sl.step, baseline := none, filtered := none, reseed := false }
                   state := .uncal, lastDelta := none
                   noisyRun := 0, faultRun := 0, driftCount := 0, negRun := 0 }
               | .pressing | .touched | .releasing =>
                 { w.chan c with state := .idle, debounce := 0, maxOn := none }
               | .off | .uncal | .idle | .fault => w.chan c)
         ∧ (∀ k, t.key k
             = (s.key k).map fun r => { r with state := .released, lastPosition := none })
         ∧ t.queue
           = (({ w with
                 queue := (w.stopPosts.foldl Queue.receive (w.queue, w.table.length)).1
               } : State).afterReply f.tag .ok).queue
         ∧ { t with
             engines := s.engines, channels := s.channels, jobs := s.jobs, keys := s.keys,
             queue := s.queue, table := s.table }
           = { halted with freeCount := s.freeCount + 1 })
  ∧ (∀ (s : State) (ms : List (EngineId × Nat)),
      (∀ e r timer counter c1, s.engine e ≠ .half2 r timer counter c1) →
        ms.foldl State.completeInStop s = s)
  ∧ (∀ (s : State) (e : EngineId) (r : BurstRecord) (timer counter c1 cycles : Nat),
      s.sched.mode = .stopped → s.engine e = .half2 r timer counter c1 → r.purpose = .scan →
        let x := r.sample (s.chan r.channel).config.noiseLimit c1 (min 16383 (counter + cycles))
        let effect := (s.chan r.channel).scanSample r.channel x
        (r.generation ≠ (s.chan r.channel).generation →
          s.completeInStop (e, cycles) = { s with engines := s.engines.set e .idle })
        ∧ (r.generation = (s.chan r.channel).generation →
          s.completeInStop (e, cycles)
            = { s.setChan r.channel effect.channel with
                queue := effect.events.foldl (fun q b => q.offer s.table.length b) s.queue
                engines := s.engines.set e .idle })
        ∧ (r.generation = (s.chan r.channel).generation → (s.chan r.channel).state = .fault →
          (s.chan r.channel).goodRun = 7 → (∀ kind, x.cls ≠ .fault kind) →
            let t := s.completeInStop (e, cycles)
            (t.chan r.channel).state = .uncal
              ∧ (t.chan r.channel).generation = (s.chan r.channel).generation
              ∧ t.job r.channel = s.job r.channel ∧ t.sched = s.sched
              ∧ t.queue = s.queue.offer s.table.length (.fault r.channel .clear)))

/-- R64, R65, R102, R107, R179, R180: CALIBRATE. A listed channel above 23 is RANGE. The named channels (for
an empty list, every enabled one) are then judged in order: OFF, or none, is STATE; one listed twice is
CONFLICT; one CALIBRATING or with a pending MEASURE is BUSY; a full table is FULL; a tag in use is TAGINUSE;
a refused request changes nothing. One that passes opens its entry at the tail of the table, creates a
job of origin REQUEST for each named channel, and makes the mode effect: STOPPED becomes SERVICE with
cause WORK, and DOZE becomes ACTIVE with cause WORK. It is answered ACCEPTED behind any MODE event. The
serial numbers of the jobs, and their creation before the mode effect, are notes/assumptions/5.md and
14.md. -/
def Obligations.CalibrateOpensItsEntry : Prop :=
  (∀ (s : State) (i : SlotId) (f : Frame) (n : Byte) (bytes : List Byte), s.Takes 0x30 i f →
     f.payload = n :: bytes → bytes.length = n.toNat → bytes.length ≤ 24 →
     (∃ b ∈ bytes, 23 < b.toNat) →
       exec .calibrate s = .next ((s.afterTake i).afterReply f.tag .range))
  ∧ ∀ (s : State) (i : SlotId) (f : Frame) (cs : List ChannelNo),
    s.Takes 0x30 i f → cs.length ≤ 24 →
    f.payload = BitVec.ofNat 8 cs.length :: cs.map (fun c : ChannelNo => BitVec.ofNat 8 c.val) →
      let named := if cs = [] then (List.finRange 24).filter fun c => (s.chan c).config.enabled else cs
      let refusal : Option Status :=
        if named = [] ∨ ∃ c ∈ named, (s.chan c).state = .off then some .state
        else if ¬ named.Nodup then some .conflict
        else if ∃ c ∈ named, (s.chan c).state = .calibrating
            ∨ ∃ e ∈ s.table, e.work.measured = some c then some .busy
        else if 4 ≤ s.table.length then some .full
        else if ∃ e ∈ s.table, e.tag = f.tag then some .tagInUse
        else none
      let opened := { s.afterTake i with
        channels := Vector.ofFn fun c =>
          if c ∈ named then (s.chan c).jobCreated else s.chan c
        jobs := Vector.ofFn fun c =>
          if c ∈ named then
            some (newJob (s.nextJob + named.idxOf c) (.request f.tag) (s.chan c))
          else s.job c
        nextJob := s.nextJob + named.length
        table := s.table ++ [{ tag := f.tag, work := .calibrate named [] }] }
      (∀ status, refusal = some status →
        exec .calibrate s = .next ((s.afterTake i).afterReply f.tag status))
      ∧ (refusal = none →
        ∃ v, State.TakesWork opened v ∧ exec .calibrate s = .next (v.afterReply f.tag .accepted))

/-- R85, R88, R102, R107, R181: MEASURE. A channel above 23, a sample count of 0 or above 12, or a slot
index not below the hop-list length is RANGE; OFF is STATE; CALIBRATING or measured is BUSY; a full table
is FULL; a tag in use is TAGINUSE; a refused request changes nothing. One that passes opens its entry at
the tail of the table and makes the mode effect: STOPPED becomes SERVICE with cause WORK, and DOZE becomes
ACTIVE with cause WORK. It is answered ACCEPTED behind any MODE event. In STOPPED, where no work exists
(R100), the first SERVICE cycle starts, and with it the first burst, on the channel's engine. -/
def Obligations.MeasureOpensItsEntry : Prop :=
  (∀ (s : State) (i : SlotId) (f : Frame) (b slot count : Byte), s.Takes 0x31 i f →
     f.payload = [b, slot, count] →
     (23 < b.toNat → exec .measure s = .next ((s.afterTake i).afterReply f.tag .range))
     ∧ ∀ c : ChannelNo, c.val = b.toNat →
       let refusal : Option Status :=
         if count = 0 ∨ 12 < count.toNat ∨ (s.chan c).config.hopList.length ≤ slot.toNat then
           some .range
         else if (s.chan c).state = .off then some .state
         else if (s.chan c).state = .calibrating ∨ ∃ e ∈ s.table, e.work.measured = some c then
           some .busy
         else if 4 ≤ s.table.length then some .full
         else if ∃ e ∈ s.table, e.tag = f.tag then some .tagInUse
         else none
       let opened := { s.afterTake i with
         table := s.table ++ [{ tag := f.tag, work := .measure c slot.toNat count.toNat [] }] }
       (∀ status, refusal = some status →
         exec .measure s = .next ((s.afterTake i).afterReply f.tag status))
       ∧ (refusal = none →
         ∃ v, State.TakesWork opened v ∧ exec .measure s = .next (v.afterReply f.tag .accepted)))
  ∧ (∀ (s : State) (i : SlotId) (f : Frame) (c : ChannelNo) (slot count : Byte),
      s.Takes 0x31 i f → f.payload = [BitVec.ofNat 8 c.val, slot, count] →
      slot.toNat < (s.chan c).config.hopList.length → 1 ≤ count.toNat → count.toNat ≤ 12 →
      (s.chan c).state ≠ .off → (s.chan c).state ≠ .calibrating →
      s.sched.mode = .stopped → s.sched.cycle = none → (∀ e, s.engine e = .idle) → s.table = [] →
      (∀ d, s.job d = none) →
        exec .measure s
          = .next
            ({ s.afterTake i with
                table := [{ tag := f.tag, work := .measure c slot.toNat count.toNat [] }]
                sched :=
                  { s.sched with
                    mode := .service
                    cycle := some { kind := .service, lists := ⟨[], [], [], []⟩ } }
                engines := s.engines.set (engineOf c)
                  (.settle
                    { channel := c, purpose := .measure f.tag, slot := slot.toNat,
                      step := (s.chan c).stepAt slot.toNat, window := (s.chan c).config.windowCode,
                      generation := (s.chan c).generation } 40)
                queue := s.queue.offer 1 (.mode .service .work) }.afterReply f.tag .accepted))

/-- R17, R66, R79, R107, R183: CANCEL. A tag that no pending entry carries is answered NOTFOUND. A CALIBRATE
entry has its running jobs ended ABORTED, in ascending channel order, their channels UNCAL, and completes
CANCELLED with all its results. A MEASURE entry completes CANCELLED with the samples delivered so far; its
burst in flight, if there is one, is abandoned without a sample, here in a cycle that another engine keeps
in flight and whose list for this engine is empty. The COMPLETE joins the queue; where an automatic job is
then due for the channel (UNCAL, autocal yes, in the scan list, the mode ACTIVE or DOZE), it is created and
signalled as work; and the REPLY joins last. -/
def Obligations.CancelEndsItsEntry : Prop :=
  (∀ (s : State) (i : SlotId) (f : Frame) (tag : Byte), s.Takes 0x38 i f → f.payload = [tag] →
     ((∀ e ∈ s.table, e.tag ≠ tag) →
       exec .cancel s = .next ((s.afterTake i).afterReply f.tag .notFound))
       ∧ ∀ subjects results, s.WorkKept →
         { tag := tag, work := .calibrate subjects results } ∈ s.table →
           let running := s.runningOf tag
           ∃ t, exec .cancel s = .next t
             ∧ (∀ c, t.chan c
                 = if c ∈ running then
                     { s.chan c with
                       slots := (s.chan c).slots.map fun sl =>
                         { step := sl.step, baseline := none, filtered := none, reseed := false }
                       state := .uncal
                       lastDelta := none
                       noisyRun := 0
                       faultRun := 0
                       driftCount := 0
                       negRun := 0 }
                   else s.chan c)
             ∧ (∀ c, t.job c = if c ∈ running then none else s.job c)
             ∧ { t with channels := s.channels, jobs := s.jobs }
               = { ((s.afterTake i).afterAdmit
                     (.complete tag .cancelled
                       (.calibrate subjects
                         (results ++ running.map fun c =>
                           { channel := c, outcome := .aborted,
                             window := (s.chan c).config.windowCode })))).afterReply f.tag .ok with
                   table := s.table.filter fun e => e.tag != tag })
  ∧ (∀ (s : State) (i : SlotId) (f : Frame) (tag : Byte) (c : ChannelNo) (slot count : Nat)
      (results : List MeasureResult),
      s.Takes 0x38 i f → f.payload = [tag] → (s.table.map PendingEntry.tag).Nodup →
      { tag := tag, work := .measure c slot count results } ∈ s.table →
        let g := engineOf c
        let measuring := ((s.engine g).record?.map BurstRecord.purpose) = some (.measure tag)
        let done := { (s.afterTake i).afterAdmit
            (.complete tag .cancelled (.measure c slot count results)) with
          table := s.table.filter fun e => e.tag != tag }
        let due := done.autoDue c ∧ done.listed c ∧ done.scanningNow
        let reply := fun (t : State) => t.afterReply f.tag .ok
        (¬ measuring → ¬ due → exec .cancel s = .next (reply done))
        ∧ (¬ measuring → due →
          ∃ v, (done.withAutoJob c).WorkSignalled v ∧ exec .cancel s = .next (reply v))
        ∧ ∀ cy other, measuring → s.sched.cycle = some cy → cy.lists.get g = [] → other ≠ g →
          s.engine other ≠ .idle →
            (¬ due →
              exec .cancel s = .next (reply { done with engines := s.engines.set g .idle }))
            ∧ (due →
              ∃ v, (done.withAutoJob c).WorkSignalled v
                ∧ exec .cancel s = .next (reply { v with engines := s.engines.set g .idle })))

/-! ## The link port -/

/-- R149, R152, R153: the address and the bytes of a write. The part's own address is acknowledged into an
EMPTY slot and refused with neither EMPTY; every byte is judged as it arrives: a LEN of 3..63 is kept, any
other LEN empties the slot and offers LINK with BADLEN, the bytes up to byte LEN + 1 are stored, and the
bytes after that, and those of a refused transaction, are not acknowledged. -/
def Obligations.WriteBytesAreJudgedAsTheyArrive : Prop :=
  ∀ s : State,
    (∀ address, s.inReset = none → s.link.transaction = .none →
      (address = s.link.address → ∀ i, s.link.slot i = .empty →
        ∃ j, s.link.slot j = .empty ∧
          exec (.writeAddress address) s
            = .next
              { s with
                link :=
                  { s.link.setSlot j (.filling []) with
                    transaction := .write { slot := j }, ack := true, busTimer := some 25 } })
        ∧ ((address ≠ s.link.address ∨ (s.link.slot0 ≠ .empty ∧ s.link.slot1 ≠ .empty)) →
          exec (.writeAddress address) s = .next { s with link := { s.link with ack := false } }))
      ∧ ∀ (w : WriteRecord) (b : Byte), s.link.transaction = .write w →
        (w.refused = true →
          exec (.writeByte b) s
            = .next
              { s with
                link :=
                  { s.link with
                    transaction := .write { w with received := w.received + 1 }
                    ack := false, busTimer := some 25 } })
        ∧ (w.refused = false → w.len = none → 3 ≤ b.toNat → b.toNat ≤ 63 →
          exec (.writeByte b) s
            = .next
              { s with
                link :=
                  { s.link with
                    transaction := .write { w with received := w.received + 1, len := some b }
                    ack := true, busTimer := some 25 } })
        ∧ (w.refused = false → w.len = none → (b.toNat < 3 ∨ 63 < b.toNat) →
          exec (.writeByte b) s
            = .next
              { s with
                link :=
                  { s.link.setSlot w.slot .empty with
                    transaction := .write { w with received := w.received + 1, refused := true }
                    ack := false, busTimer := some 25 }
                queue := s.queue.offer s.table.length (.link .badLen none) })
        ∧ (∀ len bs, w.refused = false → w.len = some len → s.link.slot w.slot = .filling bs →
          w.received ≤ len.toNat →
            exec (.writeByte b) s
              = .next
                { s with
                  link :=
                    { s.link.setSlot w.slot (.filling (bs ++ [b])) with
                      transaction := .write
                        { w with
                          received := w.received + 1
                          tag := if w.received = 1 then some b else w.tag }
                      ack := true, busTimer := some 25 } })
        ∧ ∀ len, w.refused = false → w.len = some len → len.toNat < w.received →
            exec (.writeByte b) s
              = .next
                { s with
                  link :=
                    { s.link with
                      transaction :=
                        .write { w with received := w.received + 1, overlong := true }
                      ack := false, busTimer := some 25 } }

/-- R154, R157: the end of a write by a STOP or a repeated START, in the order of the table: short, then
overlong, then a wrong CRC, each with the slot EMPTY and its LINK event; otherwise the slot is FULL with
the frame and takes its place behind the FULL slots before it. A refused write ends without more. -/
def Obligations.EndOfWriteIsJudged : Prop :=
  ∀ (s : State) (kind : EndKind) (w : WriteRecord) (bs : List Byte),
    s.link.transaction = .write w →
      (w.refused = true →
        exec (.transactionEnd kind) s
          = .next { s with link := { s.link with transaction := .none, busTimer := none } })
      ∧ (w.refused = false → (∀ len ∈ w.len, w.received ≤ len.toNat) →
        exec (.transactionEnd kind) s
          = .next
            { s with
              link := { s.link.setSlot w.slot .empty with transaction := .none, busTimer := none }
              queue := s.queue.offer s.table.length (.link .short w.tag) })
      ∧ ∀ len, w.refused = false → w.len = some len → len.toNat < w.received →
        s.link.slot w.slot = .filling bs →
          (w.overlong = true →
            exec (.transactionEnd kind) s
              = .next
                { s with
                  link :=
                    { s.link.setSlot w.slot .empty with transaction := .none, busTimer := none }
                  queue := s.queue.offer s.table.length (.link .long w.tag) })
          ∧ ∀ tag code payload received, w.overlong = false →
            bs = tag :: code :: payload ++ [received] → len.toNat = payload.length + 3 →
              exec (.transactionEnd kind) s
                = .next
                  (if crc (len :: tag :: code :: payload) = received then
                    { s with
                      link :=
                        { s.link.setSlot w.slot (.full ⟨tag, code, payload⟩) with
                          transaction := .none, busTimer := none
                          fullOrder := s.link.fullOrder ++ [w.slot] } }
                  else
                    { s with
                      link :=
                        { s.link.setSlot w.slot .empty with transaction := .none, busTimer := none }
                      queue := s.queue.offer s.table.length (.link .crc w.tag) })

/-- R152 to R154, R161: a request frame of any tag, code and payload of up to 60 bytes, written byte by
byte after the part's address and ended by a STOP or a repeated START, stands whole in a slot that was
EMPTY, which has become FULL behind the others, and nothing else has changed. R150: so it does when it is
clocked bit by bit on the lines, from a START, through the address with the direction bit 0, to the STOP or
the repeated START, most significant bits first; the host hears its own bits, and SDA low in the
acknowledge bit of every byte. R149, R150, R152: an address that is not the part's, or a write address with
neither slot EMPTY, is not acknowledged, and neither is any byte after it; the host hears SDA as it leaves
it itself, and nothing changes at the part but the acknowledge given. -/
def Obligations.WrittenFrameReachesItsSlot : Prop :=
  (∀ (s : State) (f : Frame) (kind : EndKind) (i : SlotId),
    s.inReset = none → s.link.transaction = .none → s.link.slot i = .empty →
    f.payload.length ≤ 60 →
      ∃ j, s.link.slot j = .empty ∧
        runAll
            (.writeAddress s.link.address :: f.bytes.map Instr.writeByte ++ [.transactionEnd kind]) s
          = some
            { s with
              link :=
                { s.link.setSlot j (.full f) with
                  fullOrder := s.link.fullOrder ++ [j], busTimer := none, ack := true } }
        ∧ (s.pending = [] → s.bus.scl = true → s.bus.sda = true →
          State.Hears
            { s with
              lines :=
                startLines ++ (addressByte s.link.address false :: f.bytes).flatMap clockByte
                  ++ endLines kind }
            ((addressByte s.link.address false :: f.bytes).flatMap (fun b => bitsOfByte b ++ [false])
              ++ [kind == .repeatedStart])
            { s with
              link :=
                { s.link.setSlot j (.full f) with
                  fullOrder := s.link.fullOrder ++ [j], busTimer := none, ack := true }
              bus := busAfter kind
              lines := [] }))
  ∧ ∀ (s : State) (address : BitVec 7) (read : Bool) (bytes : List Byte),
    s.inReset = none → s.link.transaction = .none →
    (address ≠ s.link.address ∨ (read = false ∧ ∀ i, s.link.slot i ≠ .empty)) →
    s.pending = [] → s.bus.scl = true → s.bus.sda = true →
      ∃ t,
        State.Hears
          { s with
            lines := startLines ++ (addressByte address read :: bytes).flatMap clockByte }
          ((addressByte address read :: bytes).flatMap fun b => bitsOfByte b ++ [true]) t
        ∧ t = { s with link := { s.link with ack := false }, bus := t.bus, lines := [] }

/-- R140, R141, R143, R156: the three events of a read. The address begins the transmission of the head,
which becomes SENDING, or of a NONE frame; the first bit of FLAGS fixes RESENT and MORE, and with them the
frame; the last bit of the CRC retires the head, and of a NONE frame retires nothing. -/
def Obligations.ReadEventsFollowTheHead : Prop :=
  ∀ s : State,
    (s.inReset = none → s.link.transaction = .none →
      (∀ e rest, s.queue.entries = e :: rest →
        exec (.readAddress s.link.address) s
          = .next
            { s with
              link :=
                { s.link with
                  transaction := .read
                    { ofHead := true, resent := e.read == .resent, flags := none
                      frame := [BitVec.ofNat 8 (4 + e.body.bytes.length), e.body.kindCode, e.seq]
                      retired := false }
                  ack := true, busTimer := some 25 }
              queue := { s.queue with entries := { e with read := .sending } :: rest } })
      ∧ (s.queue.entries = [] →
        exec (.readAddress s.link.address) s
          = .next
            { s with
              link :=
                { s.link with
                  transaction := .read
                    { ofHead := false, resent := false, flags := none
                      frame := [4, 0x00, s.queue.nextSeq - 1], retired := false }
                  ack := true, busTimer := some 25 } })
      ∧ ∀ address, address ≠ s.link.address →
        exec (.readAddress address) s = .next { s with link := { s.link with ack := false } })
    ∧ ∀ tr, s.link.transaction = .read tr →
      (∀ e rest, s.queue.entries = e :: rest → tr.ofHead = true → tr.flags = none →
        ∃ flags,
          exec .flagsByteStart s
            = .next
              { s with
                link :=
                  { s.link with
                    transaction := .read
                      { tr with
                        flags := some flags
                        frame := sentFrame e.body.kindCode e.seq tr.resent (decide (rest ≠ []))
                          e.body.bytes }
                    busTimer := some 25 } }
            ∧ flags.getLsbD 0 = tr.resent ∧ flags.getLsbD 1 = decide (rest ≠ [])
            ∧ flags.toNat < 4)
      ∧ (∀ seq, tr.ofHead = false → tr.flags = none → tr.frame = [4, 0x00, seq] →
        exec .flagsByteStart s
          = .next
            { s with
              link :=
                { s.link with
                  transaction := .read
                    { tr with flags := some 0, frame := sentFrame 0x00 seq false false [] }
                  busTimer := some 25 } })
      ∧ (∀ flags, tr.ofHead = true → tr.flags = some flags → tr.retired = false →
        exec .headRetire s
          = .next
            { s with
              link :=
                { s.link with
                  transaction := .read { tr with retired := true }, busTimer := some 25 }
              queue := { s.queue with entries := s.queue.entries.tail } })
      ∧ (tr.ofHead = false → exec .headRetire s = .next s)

/-- R142, R143, R157, R158: the end of a transaction by a STOP, a repeated START or the bus timeout. A
read whose head was not retired leaves it RESENT; one whose head was retired, or that sent a NONE frame,
leaves the queue. The port drives SDA no longer. The timeout discards a write as SHORT whatever it received, unless it was refused.
With no transaction nothing changes. -/
def Obligations.EndsAndTimeoutsOfTransactions : Prop :=
  ∀ (s : State) (c : Instr),
    (c = .transactionEnd .stop ∨ c = .transactionEnd .repeatedStart ∨ c = .busTimeout) →
      (s.link.transaction = .none → exec c s = .next s)
      ∧ (∃ t, exec c s = .next t ∧ t.drivesSda = false)
      ∧ (∀ tr e rest, s.link.transaction = .read tr → tr.ofHead = true → tr.retired = false →
        s.queue.entries = e :: rest →
          exec c s
            = .next
              { s with
                link := { s.link with transaction := .none, busTimer := none }
                queue := { s.queue with entries := { e with read := .resent } :: rest } })
      ∧ (∀ tr, s.link.transaction = .read tr → (tr.ofHead = false ∨ tr.retired = true) →
        exec c s = .next { s with link := { s.link with transaction := .none, busTimer := none } })
      ∧ ∀ w, s.link.transaction = .write w → c = .busTimeout →
        exec c s
          = .next
            (if w.refused then
              { s with link := { s.link with transaction := .none, busTimer := none } }
            else
              { s with
                link := { s.link.setSlot w.slot .empty with transaction := .none, busTimer := none }
                queue := s.queue.offer s.table.length (.link .short w.tag) })

/-- R140 to R143, R148, R160, R162: a whole read carries the head out and no other entry: with the FLAGS
byte fixed the transmission holds the head's frame, whose CRC over all of it is 0, and after the CRC byte
and the end of the transaction the queue is what stood behind the head. R140, R150, R156: a host that
clocks a START, the address with the direction bit 1 and any number of further bytes hears the address
acknowledged, the bytes of the frame in order, each most significant bit first, the filler 0xFF for every
further byte, and the acknowledge bits as it leaves them itself; the head leaves the queue with the last bit
of the CRC byte and not before, and a STOP or a repeated START that follows ends the read. A NONE frame
goes out of an empty queue. -/
def Obligations.WholeReadCarriesTheHeadOut : Prop :=
  (∀ (s : State) (bytes : Nat),
    s.inReset = none → s.link.transaction = .none → s.pending = [] → s.bus.scl = true →
    s.bus.sda = true →
      let host := startLines ++ clockByte (addressByte s.link.address true)
        ++ (List.replicate bytes (clockByte 0xFF)).flatten
      let heard := (bitsOfByte (addressByte s.link.address true) ++ [false])
        ++ (List.range bytes).flatMap fun i => bitsOfByte (s.readFrame.getD i 0xFF) ++ [true]
      (∃ t, State.Hears { s with lines := host } heard t
        ∧ t = { s with link := t.link, bus := t.bus, lines := [], queue := t.queue }
        ∧ (∃ tr, t.link = { s.link with transaction := .read tr, busTimer := some 25, ack := true })
        ∧ t.queue
          = { s.queue with
              entries :=
                if s.readFrame.length ≤ bytes then s.queue.entries.tail
                else
                  (s.queue.entries.take 1).map (fun e => { e with read := .sending })
                    ++ s.queue.entries.tail })
      ∧ ∀ kind, s.readFrame.length ≤ bytes →
        State.Hears { s with lines := host ++ endLines kind } (heard ++ [kind == .repeatedStart])
          { s with
            link := { s.link with transaction := .none, busTimer := none, ack := true }
            bus := busAfter kind
            lines := []
            queue := { s.queue with entries := s.queue.entries.tail } })
  ∧ ∀ (s : State) (e : Entry) (rest : List Entry) (kind : EndKind),
    s.inReset = none → s.link.transaction = .none → s.queue.entries = e :: rest →
      (∃ u tr, runAll [.readAddress s.link.address, .flagsByteStart] s = some u
        ∧ u.link.transaction = .read tr
        ∧ tr.frame
          = sentFrame e.body.kindCode e.seq (e.read == .resent) (decide (rest ≠ [])) e.body.bytes
        ∧ crc tr.frame = 0)
      ∧ runAll
          [.readAddress s.link.address, .flagsByteStart, .headRetire, .transactionEnd kind] s
        = some
          { s with
            link := { s.link with transaction := .none, busTimer := none, ack := true }
            queue := { s.queue with entries := rest } }

/-- R160: the CRC starts at 0xFF; each byte is exclusive-ORed in and shifted out eight times, with 0x2F
exclusive-ORed in for each 1 shifted out; and a frame received intact, its CRC byte last, gives 0. -/
def Obligations.CrcFollowsItsPolynomial : Prop :=
  crc [] = 0xFF
    ∧ (∀ (bytes : List Byte) (b : Byte),
        crc (bytes ++ [b])
          = (List.range 8).foldl
            (fun r _ => if r.getLsbD 7 then (r <<< 1) ^^^ 0x2F else r <<< 1) (crc bytes ^^^ b))
    ∧ (∀ bytes : List Byte, crc (bytes ++ [crc bytes]) = 0)
    ∧ (∀ f : Frame, crc f.bytes = 0)
    ∧ ∀ (kind seq : Byte) (resent more : Bool) (body : List Byte),
        crc (sentFrame kind seq resent more body) = 0

/-! ## The engines -/

/-- R5, R6, R7, R10, R11: the parts of a burst and its sample. The settle period ends into the first
half-window, of 64·L reference ticks, with the counter at 0; its end keeps c1, saturated at 16383, and
starts a second of the same length; from dispatch to completion a burst lasts 10 + 32·L µs, at four
ticks to the µs. The sample is the mean of the half-counts rounded down, their difference, and the class
by the first test that holds. -/
def Obligations.BurstPartsAndSample : Prop :=
  ((∀ (s : State) (e : EngineId) (r : BurstRecord) (timer : Nat), s.engine e = .settle r timer →
     exec (.settleEnd e) s
       = .next { s with engines := s.engines.set e (.half1 r (64 * r.window) 0) })
   ∧ (∀ (s : State) (e : EngineId) (r : BurstRecord) (timer counter cycles : Nat),
     s.engine e = .half1 r timer counter →
       exec (.halfWindowEnd e cycles) s
         = .next
           { s with
             engines := s.engines.set e (.half2 r (64 * r.window) 0 (min 16383 (counter + cycles))) })
   ∧ ∀ window, burstTicks window = 4 * (10 + 32 * window))
  ∧ (∀ (r : BurstRecord) (limit c1 c2 : Nat), c1 ≤ 16383 → c2 ≤ 16383 →
      (r.sample limit c1 c2).channel = r.channel ∧ (r.sample limit c1 c2).slot = r.slot
        ∧ (r.sample limit c1 c2).raw = (c1 + c2) / 2 ∧ (r.sample limit c1 c2).raw ≤ 16383
        ∧ (r.sample limit c1 c2).noise = ((c1 : Int) - c2).natAbs
        ∧ (r.sample limit c1 c2).noise ≤ 16383
        ∧ ((r.sample limit c1 c2).cls = .fault .short ↔ c1 < 32 ∨ c2 < 32)
        ∧ ((r.sample limit c1 c2).cls = .fault .overrange
            ↔ 32 ≤ c1 ∧ 32 ≤ c2 ∧ (c1 = 16383 ∨ c2 = 16383))
        ∧ ((r.sample limit c1 c2).cls = .noisy
            ↔ 32 ≤ c1 ∧ 32 ≤ c2 ∧ c1 ≠ 16383 ∧ c2 ≠ 16383 ∧ limit < ((c1 : Int) - c2).natAbs)
        ∧ ((r.sample limit c1 c2).cls = .clean
            ↔ 32 ≤ c1 ∧ 32 ≤ c2 ∧ c1 ≠ 16383 ∧ c2 ≠ 16383 ∧ ((c1 : Int) - c2).natAbs ≤ limit))

/-- R3, R4, R9, R12, R13, R38, R44, R53, R89, R90, R107: the completion of a SCAN burst. In a cycle that another
engine keeps in flight and with this engine's list empty: a sample whose generation has moved, or whose
channel is OFF, UNCAL or CALIBRATING, changes nothing but its engine; one that matches is judged with the
noise limit held now and applied, its events are offered, and the engine is IDLE. An entry into PRESSING
or TOUCHED in DOZE on a doze member moves the mode to ACTIVE with cause TOUCH. An exit from FAULT in ACTIVE
or DOZE, with autocal yes and no MEASURE pending on the channel, creates an automatic job behind the FAULT
event and signals it as work. With a SCAN item of a scanned channel in front of its list, the engine is
dispatched in the same claim, with the record read from the channel then. -/
def Obligations.ScanSampleIsDelivered : Prop :=
  (∀ (s : State) (e other : EngineId) (r : BurstRecord) (timer counter c1 cycles : Nat) (cy : Cycle),
     s.engine e = .half2 r timer counter c1 → r.purpose = .scan → s.sched.cycle = some cy →
     cy.lists.get e = [] → other ≠ e → s.engine other ≠ .idle →
       let c := r.channel
       let x := r.sample (s.chan c).config.noiseLimit c1 (min 16383 (counter + cycles))
       let effect := (s.chan c).scanSample c x
       let u := { s.setChan c effect.channel with
         queue := effect.events.foldl (fun q b => q.offer s.table.length b) s.queue }
       let wakes := effect.wake = true ∧ s.sched.mode = .doze
         ∧ ∃ en ∈ s.sched.scanList, en.channel = c ∧ en.doze = true
       let exits := effect.faultExit = true ∧ u.autoDue c ∧ u.scanningNow
       let freed := fun (t : State) => { t with engines := s.engines.set e .idle }
       ((r.generation ≠ (s.chan c).generation ∨ (s.chan c).state = .off
           ∨ (s.chan c).state = .uncal ∨ (s.chan c).state = .calibrating) →
         exec (.burstComplete e cycles) s = .next (freed s))
       ∧ (r.generation = (s.chan c).generation →
         (¬ wakes → ¬ exits → exec (.burstComplete e cycles) s = .next (freed u))
         ∧ (wakes →
           ∃ v, u.LeavesDoze v .touch ∧ exec (.burstComplete e cycles) s = .next (freed v))
         ∧ (exits →
           ∃ v, (u.withAutoJob c).WorkSignalled v
             ∧ exec (.burstComplete e cycles) s = .next (freed v))))
  ∧ (∀ (s : State) (e : EngineId) (r : BurstRecord) (timer counter c1 cycles : Nat) (cy : Cycle)
      (c : ChannelNo) (rest : List WorkItem),
      s.engine e = .half2 r timer counter c1 → r.purpose = .scan →
      r.generation ≠ (s.chan r.channel).generation → s.sched.cycle = some cy →
      cy.lists.get e = .scan c :: rest → (s.chan c).state.isScanned = true →
        exec (.burstComplete e cycles) s
          = .next
            { s with
              sched := { s.sched with cycle := some { cy with lists := cy.lists.set e rest } }
              engines := s.engines.set e
                (.settle
                  { channel := c, purpose := .scan, slot := (s.chan c).current
                    step := (s.chan c).stepAt (s.chan c).current
                    window := (s.chan c).config.windowCode, generation := (s.chan c).generation }
                  40) })

/-- R15, R66, R107, R169: the completion of a MEASURE burst, in a cycle that another engine keeps in flight and
with this engine's list empty: with no such entry the sample is discarded; otherwise it joins the end of
the entry's results, and the last requested one completes the entry DONE. Where an automatic job is then
due for the channel (UNCAL, autocal yes, in the scan list, the mode ACTIVE or DOZE), it is created behind
the COMPLETE and signalled as work; otherwise the channel's record is untouched. -/
def Obligations.MeasureSampleJoinsItsEntry : Prop :=
  ∀ (s : State) (e other : EngineId) (r : BurstRecord) (timer counter c1 cycles : Nat) (cy : Cycle)
    (tag : Byte),
    s.engine e = .half2 r timer counter c1 → r.purpose = .measure tag → s.sched.cycle = some cy →
    cy.lists.get e = [] → other ≠ e → s.engine other ≠ .idle →
    (s.table.map PendingEntry.tag).Nodup →
      let c := r.channel
      let x := r.sample (s.chan c).config.noiseLimit c1 (min 16383 (counter + cycles))
      let freed := fun (t : State) => { t with engines := s.engines.set e .idle }
      ((∀ p ∈ s.table, p.tag = tag → p.work.measured ≠ some c) →
        exec (.burstComplete e cycles) s = .next (freed s))
      ∧ ∀ before after slot count results,
        s.table = before ++ { tag := tag, work := .measure c slot count results } :: after →
          let work :=
            LongWork.measure c slot count (results ++ [{ raw := x.raw, noise := x.noise, cls := x.cls }])
          let done := { s.afterAdmit (.complete tag .done work) with table := before ++ after }
          let due := done.autoDue c ∧ done.listed c ∧ done.scanningNow
          (results.length + 1 < count →
            exec (.burstComplete e cycles) s
              = .next (freed { s with table := before ++ { tag := tag, work := work } :: after }))
          ∧ (results.length + 1 = count → ¬ due →
            exec (.burstComplete e cycles) s = .next (freed done))
          ∧ (results.length + 1 = count → due →
            ∃ v, (done.withAutoJob c).WorkSignalled v
              ∧ exec (.burstComplete e cycles) s = .next (freed v))

/-- R14, R77, R78: the completion of a CAL burst, in a cycle that another engine keeps in flight and with this
engine's list empty. A sample whose generation has moved, or whose job is no longer the channel's, changes
nothing but its engine. An accepted one moves the job one step, as `SearchFindsTheSmallestCode`,
`AcquireFillsTheSlot` and `JobsFailByFaultOrNoise` give it. A job that ends leaves the set, and the events of
its channel's record are offered. One of origin AUTOMATIC then posts RECAL with its outcome and the window
code. One of a request appends its result to its CALIBRATE entry, which completes once it holds a result for
every subject: DONE if every outcome is OK, LOW or HIGH, and PARTIAL otherwise. -/
def Obligations.CalibrationSampleMovesItsJob : Prop :=
  ∀ (s : State) (e other : EngineId) (r : BurstRecord) (timer counter c1 cycles : Nat) (cy : Cycle)
    (serial : Nat),
    s.engine e = .half2 r timer counter c1 → r.purpose = .cal serial → s.sched.cycle = some cy →
    cy.lists.get e = [] → other ≠ e → s.engine other ≠ .idle →
      let c := r.channel
      let ch := s.chan c
      let x := r.sample ch.config.noiseLimit c1 (min 16383 (counter + cycles))
      let freed := fun (t : State) => { t with engines := s.engines.set e .idle }
      ((r.generation ≠ ch.generation ∨ ∀ j, s.job c = some j → j.serial ≠ serial) →
        exec (.burstComplete e cycles) s = .next (freed s))
      ∧ ∀ j, s.job c = some j → j.serial = serial → r.generation = ch.generation →
        (∀ j' ch', j.accept c ch x = .goesOn j' ch' →
          exec (.burstComplete e cycles) s = .next (freed ((s.setChan c ch').setJob c (some j'))))
        ∧ ∀ outcome ch' events, j.accept c ch x = .ends outcome ch' events →
          let ended := { (s.setChan c ch').setJob c none with
            queue := events.foldl (fun q b => q.offer s.table.length b) s.queue }
          (j.origin = .automatic →
            exec (.burstComplete e cycles) s
              = .next
                (freed
                  { ended with
                    queue :=
                      ended.queue.offer s.table.length
                        (.recal c (.autoCal outcome ch'.config.windowCode)) }))
          ∧ ∀ tag before after subjects results, j.origin = .request tag →
            (s.table.map PendingEntry.tag).Nodup →
            s.table = before ++ { tag := tag, work := .calibrate subjects results } :: after →
              let all := results ++
                [{ channel := c, outcome := outcome, window := ch'.config.windowCode }]
              let good := ∀ y ∈ all, y.outcome = .ok ∨ y.outcome = .low ∨ y.outcome = .high
              ((∃ d ∈ subjects, d ∉ all.map CalResult.channel) →
                exec (.burstComplete e cycles) s
                  = .next
                    (freed
                      { ended with
                        table :=
                          before ++ { tag := tag, work := .calibrate subjects all } :: after }))
              ∧ ((∀ d ∈ subjects, d ∈ all.map CalResult.channel) →
                exec (.burstComplete e cycles) s
                  = .next
                    (freed
                      { State.afterAdmit ended
                          (.complete tag (if good then .done else .partialDone)
                            (.calibrate subjects all)) with
                        table := before ++ after }))

/-! ## Detection and baseline tracking -/

/-- R28, R29: a clean sample moves the filtered value by a 2^k-th of its distance to 16·raw, rounded toward
minus infinity, and never past it; a slot with no filtered value, or with its reseed flag set, is seeded
with 16·raw. The delta is a sixteenth of baseline less filtered value, rounded toward zero and clipped. -/
def Obligations.FilterAndDeltaRounding : Prop :=
  (∀ (sl : Slot) (k raw f : Nat), sl.filtered = some f →
    (sl.reseed = false →
      (sl.nextFiltered k raw : Int) = f + (16 * (raw : Int) - f) / 2 ^ k
        ∧ min f (16 * raw) ≤ sl.nextFiltered k raw ∧ sl.nextFiltered k raw ≤ max f (16 * raw)
        ∧ (k = 0 → sl.nextFiltered k raw = 16 * raw))
    ∧ (sl.reseed = true → sl.nextFiltered k raw = 16 * raw))
  ∧ (∀ (sl : Slot) (k raw : Nat), sl.filtered = none → sl.nextFiltered k raw = 16 * raw)
  ∧ ∀ b f : Nat,
    -2048 ≤ deltaOf b f ∧ deltaOf b f ≤ 2047
      ∧ ((f : Int) ≤ b → b < (f : Int) + 32768 → 16 * deltaOf b f ≤ b - f ∧ b - f < 16 * deltaOf b f + 16)
      ∧ ((b : Int) ≤ f → f < (b : Int) + 32784 → 16 * deltaOf b f ≥ b - f ∧ b - f > 16 * deltaOf b f - 16)
      ∧ ((f : Int) + 32768 ≤ b → deltaOf b f = 2047)
      ∧ ((b : Int) + 32784 ≤ f → deltaOf b f = -2048)

/-- R51, R52, R54: the detection state machine, row by row, judged on a delta. -/
def Obligations.DetectionStateMovesByTheTable : Prop :=
  ∀ (ch : Channel) (d : Int), ch.TimerKept → ch.DebounceKept →
    let timer := if ch.config.maxOnTime = 0 then none else some (ch.config.maxOnTime * 250)
    let press : Bool := decide ((ch.config.touchThreshold : Int) ≤ d)
    let hold : Bool := decide ((ch.config.touchThreshold : Int) - ch.config.hysteresis ≤ d)
    (ch.state = .idle → press = true → 1 < ch.config.pressDebounce →
      ch.judge d = { ch with state := .pressing, debounce := 1 })
    ∧ (ch.state = .idle → press = true → ch.config.pressDebounce ≤ 1 →
      ch.judge d = { ch with state := .touched, debounce := 0, maxOn := timer })
    ∧ (ch.state = .idle → press = false → ch.judge d = ch)
    ∧ (ch.state = .pressing → press = true → ch.debounce + 1 < ch.config.pressDebounce →
      ch.judge d = { ch with debounce := ch.debounce + 1 })
    ∧ (ch.state = .pressing → press = true → ch.config.pressDebounce ≤ ch.debounce + 1 →
      ch.judge d = { ch with state := .touched, debounce := 0, maxOn := timer })
    ∧ (ch.state = .pressing → press = false →
      ch.judge d = { ch with state := .idle, debounce := 0 })
    ∧ (ch.state = .touched → hold = true → ch.judge d = ch)
    ∧ (ch.state = .touched → hold = false → 1 < ch.config.releaseDebounce →
      ch.judge d = { ch with state := .releasing, debounce := 1 })
    ∧ (ch.state = .touched → hold = false → ch.config.releaseDebounce ≤ 1 →
      ch.judge d = { ch with state := .idle, debounce := 0, maxOn := none })
    ∧ (ch.state = .releasing → hold = false → ch.debounce + 1 < ch.config.releaseDebounce →
      ch.judge d = { ch with debounce := ch.debounce + 1 })
    ∧ (ch.state = .releasing → hold = false → ch.config.releaseDebounce ≤ ch.debounce + 1 →
      ch.judge d = { ch with state := .idle, debounce := 0, maxOn := none })
    ∧ (ch.state = .releasing → hold = true →
      ch.judge d = { ch with state := .touched, debounce := 0 })

/-- R40 to R44, R46 to R48: FAULT and NOISY samples. The first and second FAULT samples of a run count and
change nothing else; the third takes the channel into FAULT with its learned state discarded and posts
the FAULT event of its kind. In FAULT the eighth non-fault sample in a row takes the channel to UNCAL and
posts CLEAR. A NOISY sample moves a detecting channel to the next slot of its hop list, whose reseed flag
is set, counts the noisy run, saturating at 15, and at the noise run turns the noise condition on with
one event that names the slot left; it moves no baseline, no filtered value and no detection state. -/
def Obligations.FaultAndNoisySamplesAreCounted : Prop :=
  (∀ (ch : Channel) (c : ChannelNo) (x : Sample),
     (∀ kind, ch.state.isDetecting = true → x.cls = .fault kind →
       (ch.faultRun + 1 < 3 →
         ch.scanSample c x
           = { channel :=
                 { ch with lastRaw := x.raw, lastNoise := x.noise, faultRun := ch.faultRun + 1 } })
       ∧ (3 ≤ ch.faultRun + 1 →
         ch.scanSample c x
           = { channel :=
                 { ch with
                   state := .fault
                   generation := ch.generation + 1
                   slots := ch.slots.map fun sl =>
                     { step := sl.step, baseline := none, filtered := none, reseed := false }
                   debounce := 0, noisyRun := 0, noiseOn := false, faultRun := 0, goodRun := 0
                   driftCount := 0, negRun := 0, maxOn := none
                   lastRaw := x.raw, lastNoise := x.noise, lastDelta := none }
               events :=
                 [.fault c (match kind with | .short => .short | .overrange => .overrange)] }))
     ∧ (ch.state = .fault → (∀ kind, x.cls ≠ .fault kind) →
       (ch.goodRun + 1 < 8 →
         ch.scanSample c x
           = { channel :=
                 { ch with lastRaw := x.raw, lastNoise := x.noise, goodRun := ch.goodRun + 1 } })
       ∧ (8 ≤ ch.goodRun + 1 →
         ch.scanSample c x
           = { channel :=
                 { ch with lastRaw := x.raw, lastNoise := x.noise, goodRun := 0, state := .uncal }
               events := [.fault c .clear]
               faultExit := true }))
     ∧ ∀ kind, ch.state = .fault → x.cls = .fault kind →
         ch.scanSample c x
           = { channel := { ch with lastRaw := x.raw, lastNoise := x.noise, goodRun := 0 } })
  ∧ (∀ (ch : Channel) (c : ChannelNo) (x : Sample), ch.state.isDetecting = true → x.cls = .noisy →
      ch.SlotsMatch → x.slot = ch.current →
        let n := ch.config.hopList.length
        let on := decide (ch.config.noiseRun ≤ min 15 (ch.noisyRun + 1))
        (ch.scanSample c x).events = (if ch.noiseOn = false ∧ on = true then [.noise c true x.slot] else [])
          ∧ (ch.scanSample c x).wake = false ∧ (ch.scanSample c x).faultExit = false
          ∧ (ch.scanSample c x).channel
            = { ch with
                lastRaw := x.raw, lastNoise := x.noise, faultRun := 0
                noisyRun := min 15 (ch.noisyRun + 1)
                noiseOn := ch.noiseOn || on
                current := if n = 1 then 0 else (ch.current + 1) % n
                slots := (ch.scanSample c x).channel.slots }
          ∧ ∀ k, k < n →
            (ch.scanSample c x).channel.slots[k]?
              = if n ≠ 1 ∧ k = (ch.current + 1) % n then
                  ch.slots[k]?.map fun sl => { sl with reseed := true }
                else ch.slots[k]?)

/-- R26, R29, R49, R51, R53, R55, R57, R58: a CLEAN sample on a detecting channel seeds or moves the filtered
value of its slot, judges the state on the delta found there, ends the noise condition with an event, and
signals an entry into PRESSING or TOUCHED. What follows the judgement is the tracking: judged outside IDLE,
it moves no baseline, no drift counter and no negative run; judged in IDLE and taken out of it, it sets the
negative run to 0 and keeps the drift counter; judged in IDLE and left there, it moves the drift counter and
then the negative run, by the delta found before any baseline moved, and at the configured run it takes the
NEGATIVE re-baseline and posts RECAL. How a drift step and a re-baseline move baselines is
`RebaselineAndDriftMoveBaselines`. -/
def Obligations.CleanSampleFiltersThenJudges : Prop :=
  ∀ (ch : Channel) (c : ChannelNo) (x : Sample) (sl : Slot) (b : Nat),
    ch.state.isDetecting = true → x.cls = .clean → ch.slots[x.slot]? = some sl →
    sl.baseline = some b →
      let f := sl.nextFiltered ch.config.filterDepth x.raw
      let d := deltaOf b f
      let judged := ({ ch with
        lastRaw := x.raw, lastNoise := x.noise, faultRun := 0, noisyRun := 0, noiseOn := false,
        slots := ch.slots.modify x.slot fun sl => { sl with filtered := some f, reseed := false },
        lastDelta := some d } : Channel).judge d
      let run := if d ≤ -(ch.config.negThreshold : Int) then ch.negRun + 1 else 0
      let drifted := { judged.drift with negRun := run }
      let negative := ch.state = .idle ∧ judged.state = .idle ∧ ch.config.negRun ≤ run
      (ch.scanSample c x).channel
          = (if ch.state ≠ .idle then judged
            else if judged.state ≠ .idle then { judged with negRun := 0 }
            else if ch.config.negRun ≤ run then drifted.rebaseline
            else drifted)
        ∧ (ch.scanSample c x).events
          = (if ch.noiseOn then [.noise c false x.slot] else [])
            ++ (if negative then [.recal c .negative] else [])
        ∧ ((ch.scanSample c x).wake = true
          ↔ (judged.state = .pressing ∧ ch.state ≠ .pressing)
            ∨ (judged.state = .touched ∧ ch.state ≠ .touched))
        ∧ (ch.scanSample c x).faultExit = false
        ∧ (ch.scanSample c x).channel.slots.map Slot.filtered = judged.slots.map Slot.filtered
        ∧ (ch.scanSample c x).channel.slots.map Slot.reseed = judged.slots.map Slot.reseed
        ∧ (ch.scanSample c x).channel.lastDelta = some d
        ∧ (ch.state ≠ .idle →
          (ch.scanSample c x).channel.slots.map Slot.baseline = ch.slots.map Slot.baseline)
        ∧ (¬ negative → ∀ k, k ≠ ch.current →
          (ch.scanSample c x).channel.slots[k]?.map Slot.baseline = ch.slots[k]?.map Slot.baseline)

/-- R56, R57: a re-baseline brings the current slot's baseline to its filtered value and moves every other
baseline by the same difference, held within 0..262128, with the two runs 0 and all else kept; a drift
step moves the current slot's baseline by 16 toward its filtered value, or to it when it is nearer. -/
def Obligations.RebaselineAndDriftMoveBaselines : Prop :=
  ∀ (ch : Channel) (sl : Slot) (b f : Nat), ch.slots[ch.current]? = some sl →
    sl.baseline = some b → sl.filtered = some f → b ≤ 262128 → f ≤ 262128 →
      (∃ slots, ch.rebaseline = { ch with slots := slots, driftCount := 0, negRun := 0 }
        ∧ slots.length = ch.slots.length
        ∧ ∀ (k : Nat) (old : Slot) (bk : Nat), ch.slots[k]? = some old → old.baseline = some bk →
          ∃ new,
            slots[k]? = some { old with baseline := some new } ∧ new ≤ 262128
              ∧ (k = ch.current → new = f)
              ∧ (0 ≤ (bk : Int) + (f - b) → (bk : Int) + (f - b) ≤ 262128 →
                  (new : Int) = bk + (f - b))
              ∧ ((bk : Int) + (f - b) < 0 → new = 0)
              ∧ (262128 < (bk : Int) + (f - b) → new = 262128))
      ∧ (0 < ch.config.driftInterval → ch.config.driftInterval ≤ ch.driftCount + 1 →
        ∃ new,
          ch.drift
              = { ch with
                  driftCount := 0
                  slots := ch.slots.set ch.current { sl with baseline := some new } }
            ∧ ((b : Int) + 16 ≤ f → new = b + 16) ∧ ((f : Int) + 16 ≤ b → (new : Int) = b - 16)
            ∧ ((f : Int) < b + 16 → (b : Int) < f + 16 → new = f))
      ∧ (0 < ch.config.driftInterval → ch.driftCount + 1 < ch.config.driftInterval →
        ch.drift = { ch with driftCount := ch.driftCount + 1 })
      ∧ (ch.config.driftInterval = 0 → ch.drift = ch)

/-- R59: the max-on expiry of a touched or releasing channel re-baselines it at its current slot, sets it
IDLE with the note TIMEOUT and its timer stopped, and offers a RECAL event of reason STUCK. -/
def Obligations.MaxOnExpiryEndsAStuckTouch : Prop :=
  ∀ (s : State) (c : ChannelNo) (ms : Nat) (sl : Slot) (b f : Nat),
    (s.chan c).maxOn = some ms → ((s.chan c).state = .touched ∨ (s.chan c).state = .releasing) →
    (s.chan c).slots[(s.chan c).current]? = some sl → sl.baseline = some b → sl.filtered = some f →
      exec (.maxOnExpiry c) s
        = .next
          { s.setChan c
              { s.chan c with
                slots := (s.chan c).slots.map fun x =>
                  { x with
                    baseline := x.baseline.map fun (bk : Nat) =>
                      (max 0 (min 262128 ((bk : Int) + ((f : Int) - b)))).toNat }
                driftCount := 0, negRun := 0
                state := .idle, debounce := 0, maxOn := none, note := .timeout } with
            queue := s.queue.offer s.table.length (.recal c .stuck) }

/-! ## Calibration -/

/-- R63, R70, R72: six clean samples end a search. For an electrode whose raw value rises with the window
code, and with each burst measured at the mid of its moment, the job is in ACQUIRE exactly after the
sixth, with the smallest code that reaches the target, or 64, as the channel's window code. -/
def Obligations.SearchFindsTheSmallestCode : Prop :=
  ∀ (j : Job) (c : ChannelNo) (ch : Channel) (raw : Nat → Nat),
    j.phase = .search → j.lo = 1 → j.hi = 64 → (∀ m n, m ≤ n → raw m ≤ raw n) →
      let sampled := fun (p : Job × Channel) =>
        ({ channel := c, slot := 0, raw := raw ((p.1.lo + p.1.hi) / 2), noise := 0, cls := .clean }
          : Sample)
      let next := fun (p : Job × Channel) =>
        match p.1.accept c p.2 (sampled p) with
        | .goesOn j' ch' => (j', ch')
        | .ends _ ch' _ => (p.1, ch')
      (∀ n, n < 6 → (next^[n] (j, ch)).1.phase = .search
        ∧ (next^[n] (j, ch)).1.hi - (next^[n] (j, ch)).1.lo + 1 = 2 ^ (6 - n))
      ∧ (next^[6] (j, ch)).1.phase = .acquire
      ∧ (next^[6] (j, ch)).1.acquireSlot = 0 ∧ (next^[6] (j, ch)).1.cleanCount = 0
      ∧ (next^[6] (j, ch)).1.sum = 0 ∧ (next^[6] (j, ch)).1.noisyCount = 0
      ∧ ∃ code, (next^[6] (j, ch)).2 = { ch with config := { ch.config with windowCode := code } }
        ∧ 1 ≤ code ∧ code ≤ 64
        ∧ (code = 64 ∨ ch.config.target ≤ raw code)
        ∧ ∀ m, 1 ≤ m → m < code → raw m < ch.config.target

/-- R73, R76: eight clean samples fill the slot of a job in ACQUIRE with twice their sum, as its baseline and
its filtered value, and no other slot; on the last slot the eighth is the job's success, with LOW, OK or HIGH
by the mean at slot 0, every reseed flag clear, and the channel IDLE at slot 0. -/
def Obligations.AcquireFillsTheSlot : Prop :=
  ∀ (j : Job) (c : ChannelNo) (ch : Channel) (x : Sample), j.phase = .acquire → x.cls = .clean →
    j.acquireSlot < ch.slots.length → ch.slots.length = ch.config.hopList.length →
      (j.cleanCount + 1 < 8 →
        j.accept c ch x
          = .goesOn
            { j with faultRun := 0, cleanCount := j.cleanCount + 1, sum := j.sum + x.raw } ch)
      ∧ (j.cleanCount + 1 = 8 → j.acquireSlot + 1 < ch.config.hopList.length →
        ∃ ch',
          j.accept c ch x
              = .goesOn
                { j with
                  faultRun := 0, cleanCount := 0, sum := 0, noisyCount := 0
                  acquireSlot := j.acquireSlot + 1 } ch'
            ∧ ch' = { ch with slots := ch'.slots } ∧ ch'.slots.length = ch.slots.length
            ∧ ∀ (k : Nat) (sl : Slot), ch.slots[k]? = some sl →
              ch'.slots[k]?
                = some
                  (if k = j.acquireSlot then
                    { sl with
                      baseline := some (2 * (j.sum + x.raw)), filtered := some (2 * (j.sum + x.raw))
                      reseed := false }
                  else sl))
      ∧ (j.cleanCount + 1 = 8 → j.acquireSlot + 1 = ch.config.hopList.length →
        ∃ outcome ch',
          j.accept c ch x = .ends outcome ch' []
            ∧ ch' = { ch with
                state := .idle, current := 0, lastDelta := none, maxOn := none, debounce := 0
                noisyRun := 0, faultRun := 0, goodRun := 0, driftCount := 0, negRun := 0
                slots := ch'.slots }
            ∧ ch'.slots.length = ch.slots.length
            ∧ (∀ (k : Nat) (sl : Slot), ch.slots[k]? = some sl →
              ch'.slots[k]?
                = some
                  (if k = j.acquireSlot then
                    { sl with
                      baseline := some (2 * (j.sum + x.raw)), filtered := some (2 * (j.sum + x.raw))
                      reseed := false }
                  else { sl with reseed := false }))
            ∧ ∀ b, ch'.slots[0]?.map Slot.baseline = some (some b) →
              (outcome = .low ↔ b / 16 + ch.config.tolerance < ch.config.target)
                ∧ (outcome = .high ↔ ch.config.target + ch.config.tolerance < b / 16
                    ∧ ch.config.target ≤ b / 16 + ch.config.tolerance)
                ∧ (outcome = .ok ∨ outcome = .low ∨ outcome = .high))

/-- R69, R71, R74, R75: a job counts its FAULT samples in a row and its NOISY samples; the third FAULT ends
it in FAULT, with the channel in FAULT and a FAULT event, and the sixteenth NOISY one ends it in NOISE,
with the channel UNCAL and its slots empty. -/
def Obligations.JobsFailByFaultOrNoise : Prop :=
  ∀ (j : Job) (c : ChannelNo) (ch : Channel) (x : Sample),
    (∀ kind, x.cls = .fault kind →
      (j.faultRun + 1 < 3 → j.accept c ch x = .goesOn { j with faultRun := j.faultRun + 1 } ch)
      ∧ (3 ≤ j.faultRun + 1 →
        ∃ ch',
          j.accept c ch x
              = .ends .fault ch'
                [.fault c (match kind with | .short => .short | .overrange => .overrange)]
            ∧ ch'.state = .fault ∧ ch'.generation = ch.generation + 1 ∧ ch'.lastDelta = none
            ∧ ch'.noiseOn = false ∧ ch'.maxOn = none ∧ ch'.config = ch.config ∧ ch'.note = ch.note
            ∧ ∀ sl ∈ ch'.slots, sl.Unfilled ∧ sl.reseed = false))
    ∧ (x.cls = .noisy →
      (j.noisyCount + 1 < 16 →
        j.accept c ch x = .goesOn { j with faultRun := 0, noisyCount := j.noisyCount + 1 } ch)
      ∧ (16 ≤ j.noisyCount + 1 →
        ∃ ch',
          j.accept c ch x = .ends .noise ch' []
            ∧ ch'.state = .uncal ∧ ch'.generation = ch.generation ∧ ch'.current = ch.current
            ∧ ch'.noiseOn = ch.noiseOn ∧ ch'.config = ch.config
            ∧ ch'.noisyRun = 0 ∧ ch'.faultRun = 0 ∧ ch'.driftCount = 0 ∧ ch'.negRun = 0
            ∧ ∀ sl ∈ ch'.slots, sl.Unfilled ∧ sl.reseed = false))

/-! ## The scheduler -/

/-- R91, R94 to R97, R105, R109: the expiry of a running timer. The period timer, with a cycle in flight, marks
it late, counts an overrun, saturating at 65535, and stays stopped; with none, the engines IDLE, it starts a
cycle of the kind that ACTIVE or DOZE gives, whose start restarts the timer; a cycle with no burst to make
ends in the same claim, with its count, its key evaluation and, in ACTIVE, its quiet judgement. A DOZE cycle
with a doze member to scan, for one, sets the member's engine to work. The inactivity timer, in ACTIVE with
no cycle in flight and the note quiet, leads into DOZE with cause IDLE_TIMEOUT at once; in every other case
its expiry is remembered. -/
def Obligations.TimerExpiriesMoveTheScheduler : Prop :=
  (∀ (s : State) (ms : Nat), s.sched.periodTimer = some ms →
     (∀ cy, s.sched.cycle = some cy →
       exec .periodExpiry s
         = .next
           { s with
             sched :=
               { s.sched with
                 cycle := some { cy with late := true }
                 periodTimer := none
                 overruns := min 65535 (s.sched.overruns + 1) } })
     ∧ (s.sched.cycle = none → s.scanningNow → (∀ e, s.engine e = .idle) →
       ∃ t, s.RunsCycle t ∧ exec .periodExpiry s = .next t)
     ∧ ∀ c, s.sched.cycle = none → s.sched.mode = .doze → (∀ e, s.engine e = .idle) →
         { channel := c, doze := true } ∈ s.sched.scanList → (s.chan c).state.isScanned = true →
           ∃ engines cy,
             exec .periodExpiry s
                 = .next
                   { s with
                     engines := engines
                     sched :=
                       { s.sched with
                         cycle := some cy, periodTimer := some s.sched.dozePeriod } }
               ∧ cy.kind = .doze ∧ cy.late = false ∧ cy.startOwed = false
               ∧ engines.get (engineOf c) ≠ .idle)
  ∧ (∀ (s : State) (ms : Nat), s.sched.inactivity = .running ms → s.sched.mode = .active →
      exec .inactivityExpiry s
        = .next
          (if s.sched.cycle = none ∧ s.sched.quiet = true then
            { s with
              sched :=
                { s.sched with
                  mode := .doze, inactivity := .stopped, quiet := false
                  periodTimer := some s.sched.dozePeriod }
              queue := s.queue.offer s.table.length (.mode .doze .idleTimeout) }
          else { s with sched := { s.sched with inactivity := .expired } }))

/-- R1, R3, R86 to R88, R90: the work lists. An engine's list holds work for its own channels alone, in three
parts: the scan part, in scan-list order, whose entries are every one in an ACTIVE cycle, the doze members in
a DOZE cycle and none in a SERVICE cycle, with a SCAN item for a scanned channel and a CAL item for a
CALIBRATING one; then a CAL item for every CALIBRATING channel the scan part leaves out, in ascending order;
then a MEASURE item for every pending MEASURE, oldest first. So a scanned channel has at most one SCAN item,
every job exactly one CAL item and every pending MEASURE exactly one MEASURE item, and OFF and UNCAL channels
have neither SCAN nor CAL. An item offered is judged by what stands then: a SCAN item is dispatched as a SCAN
burst of a scanned channel, as a CAL burst of a CALIBRATING one, and skipped else; a CAL item is dispatched
while its job is the channel's, and a MEASURE item while its entry is pending. -/
def Obligations.WorkListsFollowTheBuild : Prop :=
  (∀ (s : State) (kind : CycleKind) (e : EngineId), s.WorkKept → s.sched.SettingsKept →
    let taken := s.sched.scanList.filter fun en =>
      match kind with
      | .active => true
      | .doze => en.doze
      | .service => false
    let cal := fun (c : ChannelNo) => (s.job c).map fun j => WorkItem.cal c j.serial
    s.buildList kind e
        = ((taken.filter fun en => engineOf en.channel == e).filterMap fun en =>
            if (s.chan en.channel).state.isScanned then some (.scan en.channel) else cal en.channel)
          ++ (((List.finRange 24).filter fun c =>
            engineOf c == e && !(taken.map ScanEntry.channel).contains c).filterMap cal)
          ++ (s.table.filterMap fun p =>
            match p.work with
            | .calibrate _ _ => none
            | .measure c _ _ _ => if engineOf c = e then some (.measure c p.tag) else none)
    ∧ (∀ item ∈ s.buildList kind e, engineOf item.channel = e)
    ∧ ∀ c, engineOf c = e →
      ((s.buildList kind e).countP fun item => item == .scan c)
          = (if (s.chan c).state.isScanned = true
              ∧ ∃ en ∈ s.sched.scanList, en.channel = c
                ∧ (kind = .active ∨ (kind = .doze ∧ en.doze = true)) then 1 else 0)
      ∧ ((s.buildList kind e).countP fun item =>
            match item with
            | .cal c' _ => c' == c
            | .scan _ => false
            | .measure _ _ => false)
          = (if (s.chan c).state = .calibrating then 1 else 0)
      ∧ (∀ j, s.job c = some j → .cal c j.serial ∈ s.buildList kind e)
      ∧ ∀ tag, ((s.buildList kind e).countP fun item => item == .measure c tag)
          = (if ∃ p ∈ s.table, p.tag = tag ∧ p.work.measured = some c then 1 else 0))
  ∧ ∀ (s : State) (c : ChannelNo), s.WorkKept →
    let ch := s.chan c
    let record := fun (p : Purpose) (slot window : Nat) =>
      ({ channel := c, purpose := p, slot := slot, step := ch.stepAt slot, window := window,
         generation := ch.generation } : BurstRecord)
    let calBurst := fun (j : Job) =>
      match j.phase with
      | .search => record (.cal j.serial) 0 ((j.lo + j.hi) / 2)
      | .acquire => record (.cal j.serial) j.acquireSlot ch.config.windowCode
    (ch.state.isScanned = true →
      s.judgeItem (.scan c) = some (record .scan ch.current ch.config.windowCode))
    ∧ (∀ j, s.job c = some j → s.judgeItem (.scan c) = some (calBurst j))
    ∧ (ch.state = .off ∨ ch.state = .uncal → s.judgeItem (.scan c) = none)
    ∧ (∀ j n, s.job c = some j →
      s.judgeItem (.cal c n) = if j.serial = n then some (calBurst j) else none)
    ∧ (∀ n, s.job c = none → s.judgeItem (.cal c n) = none)
    ∧ (∀ tag slot count results,
      { tag := tag, work := .measure c slot count results } ∈ s.table →
        s.judgeItem (.measure c tag) = some (record (.measure tag) slot ch.config.windowCode))
    ∧ (∀ tag, (∀ p ∈ s.table, p.tag = tag → p.work.measured ≠ some c) →
      s.judgeItem (.measure c tag) = none)

/-- R91: a cycle that is done is taken to its end in the claim in which it is done: no command leaves a
cycle in flight whose lists are empty and whose engines are IDLE. -/
def Obligations.DoneCycleEndsInItsClaim : Prop :=
  ∀ (c : Instr) (s t : State), s.WorkKept → s.cycleFinished = false → exec c s = .next t →
    t.cycleFinished = false

/-- R92, R93, R97, R103, R105, R108: the end of a cycle, here at the completion of the last burst, a SCAN or CAL
burst whose sample is discarded. A SERVICE cycle neither counts nor evaluates: in SERVICE the next starts
while work remains, and with none left the mode becomes STOPPED with cause WORK_DONE; in ACTIVE the first
ACTIVE cycle starts, and in DOZE the period timer restarts. An ACTIVE or DOZE cycle counts and evaluates the
keys; an ACTIVE one that ends in ACTIVE is then judged quiet or not, which restarts the inactivity timer, sets
the note, or with a remembered expiry leads into DOZE. In the mode it had, a late or a start-owed mark then
starts the next cycle at once; with neither, a running period timer is left to start it, and in DOZE a stopped
one restarts. -/
def Obligations.CycleEndsByItsKind : Prop :=
  ∀ (s : State) (e : EngineId) (r : BurstRecord) (timer counter c1 cycles : Nat) (cy : Cycle),
    s.engine e = .half2 r timer counter c1 → (r.purpose = .scan ∨ ∃ n, r.purpose = .cal n) →
    r.generation ≠ (s.chan r.channel).generation → s.sched.cycle = some cy →
    cy.lists = ⟨[], [], [], []⟩ → (∀ other, other ≠ e → s.engine other = .idle) →
      let freed := { s with
        engines := ⟨.idle, .idle, .idle, .idle⟩
        sched := { s.sched with cycle := none } }
      let counted := { s.evaluateKeys with
        engines := ⟨.idle, .idle, .idle, .idle⟩
        sched := { s.sched with cycleCount := s.sched.cycleCount + 1, cycle := none } }
      let work := (∃ c, s.job c ≠ none) ∨ ∃ p ∈ s.table, p.work.measured ≠ none
      (cy.kind = .service →
        (s.sched.mode = .service → ¬ work →
          exec (.burstComplete e cycles) s
            = .next
              { freed with
                sched := { s.sched with mode := .stopped, cycle := none }
                queue := s.queue.offer s.table.length (.mode .stopped .workDone) })
        ∧ (s.sched.mode = .service → s.WorkKept → work →
          ∃ t, State.StartsCycle freed t .service ∧ exec (.burstComplete e cycles) s = .next t)
        ∧ (s.sched.mode = .active →
          ∃ t, State.RunsCycle freed t ∧ exec (.burstComplete e cycles) s = .next t)
        ∧ (s.sched.mode = .doze →
          exec (.burstComplete e cycles) s
            = .next
              { freed with
                sched :=
                  { s.sched with cycle := none, periodTimer := some s.sched.dozePeriod } }))
      ∧ (cy.kind ≠ .service → ∀ v : State,
        (cy.kind = .active → s.sched.mode = .active → State.QuietJudged counted v) →
        (cy.kind ≠ .active ∨ s.sched.mode ≠ .active → v = counted) →
          (v.sched.mode ≠ s.sched.mode → exec (.burstComplete e cycles) s = .next v)
          ∧ (v.sched.mode = s.sched.mode → s.scanningNow →
            cy.late = true ∨ cy.startOwed = true →
              ∃ t, v.RunsCycle t ∧ exec (.burstComplete e cycles) s = .next t)
          ∧ (v.sched.mode = s.sched.mode → cy.late = false → cy.startOwed = false →
            exec (.burstComplete e cycles) s
              = .next
                (if s.sched.mode = .doze ∧ s.sched.periodTimer = none then
                  { v with sched := { v.sched with periodTimer := some v.sched.dozePeriod } }
                else v)))

/-! ## The key evaluator -/

/-- R116, R118, R119, R121, R122, R123, R124: an evaluation sets every release note to NONE and changes nothing
else of a channel. A key that it presses posts PRESS, with its strength and, for a slider, its position; one
that it releases posts RELEASE, with the cause that its channels give in the order FAULT, TIMEOUT, RECONFIG,
NORMAL; a slider that stays PRESSED posts SLIDE when its position has moved by the slide step or more from the
last report; and no key posts anything else. The events are offered in this order: every RELEASE, every PRESS,
every SLIDE, each in ascending key order. No other part of the state changes. Which keys move is
`KeysMoveByCandidacy`. -/
def Obligations.EvaluationOrdersItsEvents : Prop :=
  ∀ s : State,
    let delta := fun (c : ChannelNo) => ((s.chan c).lastDelta.getD 0).toNat
    let position := fun (r : Key) => sliderPosition (r.channels.map delta)
    let cause := fun (r : Key) =>
      if ∃ c ∈ r.channels, (s.chan c).state = .fault then ReleaseCause.fault
      else if ∃ c ∈ r.channels, (s.chan c).note = .timeout then .timeout
      else if ∃ c ∈ r.channels, (s.chan c).note = .reconfig ∨ (s.chan c).state = .calibrating then
        .reconfig
      else .normal
    let slide := fun (k : KeyNo) (r : Key) =>
      match r.kind, r.lastPosition, r.slideStep with
      | .slider, some q, some step =>
        if step ≤ ((position r : Int) - q).natAbs then some (Body.slide k (position r)) else none
      | _, _, _ => none
    let event := fun (k : KeyNo) =>
      match s.key k, (s.evaluateKeys.key k).map Key.state with
      | some r, some now =>
        match r.state, now with
        | .released, .released => none
        | .released, .pressed =>
          some
            (.press k ((r.channels.map delta).foldl max 0)
              (match r.kind with | .button => none | .slider => some (position r)))
        | .pressed, .released => some (.release k (cause r))
        | .pressed, .pressed => slide k r
      | _, _ => none
    let events := (List.finRange 16).filterMap event
    (∀ c, s.evaluateKeys.chan c = { s.chan c with note := .none })
    ∧ { s.evaluateKeys with channels := s.channels, keys := s.keys }
      = { s with
          queue :=
            (events.filter Body.isRelease ++ events.filter Body.isPress
              ++ events.filter Body.isSlide).foldl (fun q b => q.offer s.table.length b) s.queue }

/-- R117 to R120, R123: how keys move in an evaluation. A pressed key stays pressed exactly while it is a
candidate; an ungrouped key that is a candidate is pressed; of a group that no pressed candidate holds, the
strongest candidate is pressed, the lowest number among equals; every other released key stays released. A
slider that is pressed takes its position as the last reported one, one that stays PRESSED takes its new
position when it has moved by the slide step or more, and a release makes it absent. -/
def Obligations.KeysMoveByCandidacy : Prop :=
  ∀ (s : State) (k : KeyNo) (r : Key), s.key k = some r →
    let look := fun c => (s.chan c).copy
    let touched := fun (r : Key) =>
      (∃ c ∈ r.channels, (s.chan c).state = .touched ∨ (s.chan c).state = .releasing)
        ∧ (r.kind = .slider →
          ∀ c ∈ r.channels, (s.chan c).state ≠ .fault ∧ (s.chan c).state ≠ .calibrating)
    let pressed := (s.evaluateKeys.key k).map Key.state = some .pressed
    let held := fun g => ∃ k' r', s.key k' = some r' ∧ r'.group = some g ∧ r'.state = .pressed
      ∧ touched r'
    let wins := fun g => ∀ k' r', s.key k' = some r' → r'.group = some g → touched r' →
      r'.strength look < r.strength look ∨ (r'.strength look = r.strength look ∧ k ≤ k')
    (r.state = .pressed → (pressed ↔ touched r))
    ∧ (r.state = .released → r.group = none → (pressed ↔ touched r))
    ∧ (∀ g, r.state = .released → r.group = some g → (pressed ↔ touched r ∧ ¬ held g ∧ wins g))
    ∧ (¬ pressed → (s.evaluateKeys.key k)
        = some { r with state := .released, lastPosition := if r.state = .pressed then none else r.lastPosition })
    ∧ (pressed → r.state = .released → (s.evaluateKeys.key k)
        = some
          { r with
            state := .pressed
            lastPosition := match r.kind with
              | .button => none
              | .slider => some (sliderPosition
                  (r.channels.map fun c => ((s.chan c).lastDelta.getD 0).toNat)) })
    ∧ (pressed → r.state = .pressed → (s.evaluateKeys.key k)
        = some
          { r with
            lastPosition :=
              let p := sliderPosition (r.channels.map fun c => ((s.chan c).lastDelta.getD 0).toNat)
              match r.kind, r.lastPosition, r.slideStep with
              | .slider, some q, some step =>
                if step ≤ ((p : Int) - q).natAbs then some p else some q
              | _, _, _ => r.lastPosition })
    ∧ (∀ c ∈ r.channels, ((s.chan c).lastDelta.getD 0).toNat ≤ r.strength look)
    ∧ (r.strength look = 0 ∨ ∃ c ∈ r.channels, (s.chan c).lastDelta = some (r.strength look : Int))

/-- R122: the position of a slider of two to eight channels. With `i` the lowest index of the largest delta,
the interpolated place is 256·i and a quotient rounded toward zero, of 256 times the difference of the two
neighbours' deltas by the sum of the three, a neighbour outside the row taken as 0; the place is held within
the row and scaled to 0..255, rounded down. So the position lies in 0..255; it is 0 when every delta is 0, and
for a touch on one channel alone it is at that channel's place on the scale. -/
def Obligations.SliderPositionsLieOnTheScale : Prop :=
  ∀ ds : List Nat, 2 ≤ ds.length → ds.length ≤ 8 →
    (∀ i, i < ds.length → (∀ j, j < ds.length → ds.getD j 0 ≤ ds.getD i 0) →
      (∀ j, j < i → ds.getD j 0 < ds.getD i 0) →
        let before : Nat := if i = 0 then 0 else ds.getD (i - 1) 0
        let after := ds.getD (i + 1) 0
        let sum := before + ds.getD i 0 + after
        let span := 256 * (ds.length - 1)
        ∃ q : Int,
          (sum = 0 → q = 0)
          ∧ (0 < sum → before ≤ after → 0 ≤ q ∧ q * sum ≤ 256 * ((after : Int) - before)
              ∧ 256 * ((after : Int) - before) < (q + 1) * sum)
          ∧ (0 < sum → after ≤ before → q ≤ 0 ∧ 256 * ((after : Int) - before) ≤ q * sum
              ∧ (q - 1) * sum < 256 * ((after : Int) - before))
          ∧ sliderPosition ds = (max 0 (min (span : Int) (256 * i + q))).toNat * 255 / span)
      ∧ sliderPosition ds ≤ 255
      ∧ ((∀ d ∈ ds, d = 0) → sliderPosition ds = 0)
      ∧ ∀ i, i < ds.length → 0 < ds.getD i 0 → (∀ j, j ≠ i → ds.getD j 0 = 0) →
        sliderPosition ds = i * 255 / (ds.length - 1)

/-! ## Resets and the pins -/

/-- R8, R18, R145, R146, R149, R159, R184, R186, R187: the three resets. A RESTART resets every block, keeps the
address, posts no REPLY, and leaves READY with the request's tag alone in the queue. A power-on or a pin
reset puts the part in reset, with a cause that is POWER once a power-on took part: no electrode is
driven, SDA is not driven, ATN is released, and the bus is ignored; the release samples the straps and leaves every block
at its reset values, with READY alone in the queue, so that ATN falls. After each reset the port waits for
the next START, whatever was in progress (R151). What the model keeps of its own, and of the lines, is
notes/assumptions/9.md. -/
def Obligations.ResetsRestoreThePart : Prop :=
  (∀ s : State,
     (∃ t, exec .powerOnReset s = .next t ∧ t.inReset = some .power ∧ t.atnLow = false
       ∧ (∀ n, t.electrodeDrive n = none) ∧ t.link.transaction = .none
       ∧ t.drivesSda = false
       ∧ ∀ a, exec (.writeAddress a) t = .next t ∧ exec (.readAddress a) t = .next t)
     ∧ (∃ t, exec .pinReset s = .next t
       ∧ t.inReset = some (if s.inReset = some .power then .power else .pin)
       ∧ t.atnLow = false ∧ (∀ n, t.electrodeDrive n = none) ∧ t.link.transaction = .none
       ∧ t.drivesSda = false
       ∧ ∀ a, exec (.writeAddress a) t = .next t ∧ exec (.readAddress a) t = .next t)
     ∧ ∀ (cause : ResetCause) (adr1 adr0 : Bool), s.inReset = some cause →
         exec (.resetRelease adr1 adr0) s
             = .next
               (s.afterResetOf
                 (0x64 + (if adr1 then 2 else 0) + (if adr0 then 1 else 0)) cause none)
           ∧ (s.afterResetOf 0x64 cause none).atnLow = true
           ∧ ∀ address tag, (s.afterResetOf address cause tag).drivesSda = false)
  ∧ (∀ (s : State) (i : SlotId) (f : Frame), s.Takes 0x3F i f → f.payload = [] →
      exec .restart s = .next (s.afterResetOf s.link.address .restart (some f.tag)))

/-- R18, R20, R37, R81, R82, R84, R100, R114, R138, R147, R151, R168: what reset leaves. The address and the
cause are those of the model's reset state (notes/assumptions/4.md), and so are the levels of the bus lines
(notes/assumptions/27.md). -/
def Obligations.ResetValues : Prop :=
  State.reset.engines = ⟨.idle, .idle, .idle, .idle⟩
    ∧ (∀ c, State.reset.chan c
        = { config :=
              { enabled := false, hopList := [3], windowMode := .fixed, windowCode := 16
                target := 4000, tolerance := 400, touchThreshold := 40, hysteresis := 10
                pressDebounce := 3, releaseDebounce := 3, filterDepth := 2, noiseLimit := 64
                noiseRun := 4, driftInterval := 32, negThreshold := 20, negRun := 8
                maxOnTime := 40, autocal := false }
            slots := [{ step := 3, baseline := none, filtered := none, reseed := false }]
            state := .off, generation := 0, current := 0, debounce := 0, noisyRun := 0
            noiseOn := false, faultRun := 0, goodRun := 0, driftCount := 0, negRun := 0
            maxOn := none, lastRaw := 0, lastNoise := 0, lastDelta := none, note := .none })
    ∧ (∀ c, State.reset.job c = none) ∧ (∀ k, State.reset.key k = none)
    ∧ State.reset.sched
      = { scanList := [], cycle := none, periodTimer := none, mode := .stopped
          inactivity := .stopped, quiet := false, activePeriod := 20, dozePeriod := 200
          idleTime := 30, cycleCount := 0, overruns := 0 }
    ∧ State.reset.queue
      = { entries := [{ seq := 0, body := .ready .power 3 none, read := .queued }], nextSeq := 1
          lost := 0, mask := 0xFF }
    ∧ State.reset.table = [] ∧ State.reset.link.slot0 = .empty ∧ State.reset.link.slot1 = .empty
    ∧ State.reset.link.fullOrder = [] ∧ State.reset.link.transaction = .none
    ∧ State.reset.link.busTimer = none ∧ State.reset.link.address = 0x64
    ∧ State.reset.bus = { scl := true, sda := true, started := false, role := .off, bits := [] }
    ∧ State.reset.lastCause = .power ∧ State.reset.inReset = none ∧ State.reset.pending = []
    ∧ State.reset.lines = []

/-! ## The outbound queue -/

/-- R131 to R139: the offer of an event. A masked kind changes nothing; a SLIDE whose key has a QUEUED SLIDE
takes that entry's place in the list and its SEQ; any other event is admitted at the tail with the next
SEQ while held + pending is below 28, behind an OVERRUN that reports and clears the lost count if events
were lost, and is dropped and counted, saturating at 255, where there is no room. -/
def Obligations.OffersFollowTheAdmissionRule : Prop :=
  ∀ (s : State) (b : Body),
    let enabled := match b with
      | .press _ _ _ => s.queue.mask.getLsbD 0
      | .release _ _ => s.queue.mask.getLsbD 1
      | .slide _ _ => s.queue.mask.getLsbD 2
      | .fault _ _ => s.queue.mask.getLsbD 3
      | .noise _ _ _ => s.queue.mask.getLsbD 4
      | .recal _ _ => s.queue.mask.getLsbD 5
      | .mode _ _ => s.queue.mask.getLsbD 6
      | .link _ _ => s.queue.mask.getLsbD 7
      | .ready _ _ _ => true
      | .reply _ _ _ => true
      | .complete _ _ _ => true
      | .overrun _ => true
    let unsent := fun (k : KeyNo) (e : Entry) =>
      e.read = .queued ∧ ∃ position, e.body = .slide k position
    (enabled = false → s.post b = s)
    ∧ (∀ k position before e after, enabled = true → b = .slide k position →
        s.queue.entries = before ++ e :: after → unsent k e →
        (∀ e' ∈ before ++ after, ¬ unsent k e') →
          s.post b
            = { s with
                queue :=
                  { s.queue with
                    entries := before ++ { e with body := .slide k position } :: after } })
    ∧ (enabled = true → (∀ k position, b = .slide k position → ∀ e ∈ s.queue.entries, ¬ unsent k e) →
        (s.load < 28 → s.queue.lost = 0 → s.post b = s.afterAdmit b)
        ∧ (s.load < 27 → 0 < s.queue.lost →
          s.post b
            = ({ s with queue := { s.queue with lost := 0 } }.afterAdmit
                (.overrun s.queue.lost)).afterAdmit b)
        ∧ (s.load = 27 → 0 < s.queue.lost →
          s.post b
            = { s with queue := { s.queue with lost := 1 } }.afterAdmit (.overrun s.queue.lost))
        ∧ (28 ≤ s.load →
          s.post b = { s with queue := { s.queue with lost := min 255 (s.queue.lost + 1) } }))

/-! ## Invariants that every command keeps -/

/-- R136: queue entries and pending entries together never exceed 32, and R134: the queue never holds more
than 28 event entries. -/
def Obligations.RoomIsKept : Prop :=
  ∀ s t : State, s.RoomKept → s.queue.EventsBounded → step s = .next t →
    t.RoomKept ∧ t.queue.EventsBounded

/-- R131, R133, R139: the entries of the queue carry consecutive sequence numbers, every entry behind the
head is QUEUED, and for each key at most one SLIDE is unsent. -/
def Obligations.QueueOrderIsKept : Prop :=
  ∀ s t : State, s.queue.SeqConsecutive → s.queue.OnlyHeadUnderway → s.queue.OneUnsentSlide →
    step s = .next t →
      t.queue.SeqConsecutive ∧ t.queue.OnlyHeadUnderway ∧ t.queue.OneUnsentSlide

/-- R63, R168: the pending table holds at most four entries with distinct tags; jobs and CALIBRATE entries
serve one another, a job exists exactly for a CALIBRATING channel, and no channel is the subject of more
than one job or pending MEASURE, nor of both. -/
def Obligations.WorkIsKept : Prop :=
  ∀ s t : State, s.WorkKept → step s = .next t → t.WorkKept

/-- R6, R20 to R23, R25, R26, R52, R54, R63, R70: every channel record and its job are as the rules keep them;
and, with the half-counts saturated, every value of a record and of its job lies in its range. -/
def Obligations.ChannelRecordsAreKept : Prop :=
  (∀ s t : State, s.ChannelsKept → step s = .next t → t.ChannelsKept)
  ∧ ∀ s t : State, s.ChannelsKept → s.ValuesKept → step s = .next t → t.ValuesKept

/-- R1, R89: each engine measures, and has on its work list, the channels of its own group alone. R100: the
period and inactivity timers are stopped in STOPPED and SERVICE, and in STOPPED no cycle and no burst is
in flight. R82, R100: the settings that requests write stay within their ranges. -/
def Obligations.SchedulerAndEnginesAreKept : Prop :=
  (∀ s t : State, s.EnginesOwn → step s = .next t → t.EnginesOwn)
  ∧ (∀ s t : State, s.StillWhenStopped → s.sched.SettingsKept → step s = .next t →
      t.StillWhenStopped ∧ t.sched.SettingsKept)

/-- R120: within one suppression group at most one key is PRESSED; R114, R174: no channel is listed in two
keys, or twice in one. -/
def Obligations.KeysAreKept : Prop :=
  ∀ s t : State, s.GroupsExclusive → s.KeyChannelsDistinct → step s = .next t →
    t.GroupsExclusive ∧ t.KeyChannelsDistinct

/-- Every invariant above holds of the reset state. -/
def Obligations.ResetMeetsTheInvariants : Prop :=
  State.reset.RoomKept ∧ State.reset.queue.EventsBounded ∧ State.reset.queue.SeqConsecutive
    ∧ State.reset.queue.OnlyHeadUnderway ∧ State.reset.queue.OneUnsentSlide ∧ State.reset.WorkKept
    ∧ State.reset.ChannelsKept ∧ State.reset.EnginesOwn ∧ State.reset.StillWhenStopped
    ∧ State.reset.sched.SettingsKept ∧ State.reset.GroupsExclusive
    ∧ State.reset.KeyChannelsDistinct ∧ State.reset.cycleFinished = false
    ∧ State.reset.ValuesKept

/-! ## Commands out of place -/
end

