-- ==== Sys2Proof/Laws/State.lean ====
section
/-! SUPPORT. One lemma for each field of State and each update of it, and the read-after-write lemmas
of the parts that are read by number, so that no later proof unfolds an update. -/

namespace Sys2Proof.Machine

/-! ## Reading what was written -/

@[simp] theorem PerEngine.get_set_self {α : Type} (p : PerEngine α) (e : EngineId) (x : α) :
    (p.set e x).get e = x := by cases e <;> rfl

theorem PerEngine.get_set_ne {α : Type} (p : PerEngine α) {e e' : EngineId} (x : α) (h : e' ≠ e) :
    (p.set e x).get e' = p.get e' := by cases e <;> cases e' <;> first | rfl | exact absurd rfl h

@[simp] theorem PerEngine.set_set {α : Type} (p : PerEngine α) (e : EngineId) (x y : α) :
    (p.set e x).set e y = p.set e y := by cases e <;> rfl

@[simp] theorem PerEngine.set_get_self {α : Type} (p : PerEngine α) (e : EngineId) :
    p.set e (p.get e) = p := by cases e <;> rfl

@[simp] theorem State.engine_setEngine_self (s : State) (e : EngineId) (x : Engine) :
    (s.setEngine e x).engine e = x := PerEngine.get_set_self s.engines e x

theorem State.engine_setEngine_ne (s : State) {e e' : EngineId} (x : Engine) (h : e' ≠ e) :
    (s.setEngine e x).engine e' = s.engine e' := PerEngine.get_set_ne s.engines x h

@[simp] theorem State.chan_setChan_self (s : State) (c : ChannelNo) (x : Channel) :
    (s.setChan c x).chan c = x := by simp [State.chan, State.setChan]

theorem State.chan_setChan_ne (s : State) {c d : ChannelNo} (x : Channel) (h : d ≠ c) :
    (s.setChan c x).chan d = s.chan d := by
  have : (c : Nat) ≠ d := fun e => h (Fin.ext e.symm)
  simp [State.chan, State.setChan, Vector.getElem_set_ne, this]

@[simp] theorem State.chan_mapChannels (s : State) (f : ChannelNo → Channel → Channel)
    (c : ChannelNo) : (s.mapChannels f).chan c = f c (s.chan c) := by
  simp [State.chan, State.mapChannels]

@[simp] theorem State.setChan_chan_self (s : State) (c : ChannelNo) : s.setChan c (s.chan c) = s := by
  simp [State.chan, State.setChan]

@[simp] theorem State.job_setJob_self (s : State) (c : ChannelNo) (j : Option Job) :
    (s.setJob c j).job c = j := by simp [State.job, State.setJob]

theorem State.job_setJob_ne (s : State) {c d : ChannelNo} (j : Option Job) (h : d ≠ c) :
    (s.setJob c j).job d = s.job d := by
  have : (c : Nat) ≠ d := fun e => h (Fin.ext e.symm)
  simp [State.job, State.setJob, Vector.getElem_set_ne, this]

@[simp] theorem State.key_setKeyRecord_self (s : State) (k : KeyNo) (x : Option Key) :
    (s.setKeyRecord k x).key k = x := by simp [State.key, State.setKeyRecord]

theorem State.key_setKeyRecord_ne (s : State) {k k' : KeyNo} (x : Option Key) (h : k' ≠ k) :
    (s.setKeyRecord k x).key k' = s.key k' := by
  have : (k : Nat) ≠ k' := fun e => h (Fin.ext e.symm)
  simp [State.key, State.setKeyRecord, Vector.getElem_set_ne, this]

@[simp] theorem State.key_mapKeys (s : State) (f : KeyNo → Option Key) (k : KeyNo) :
    (s.mapKeys f).key k = f k := by simp [State.key, State.mapKeys]

/-- Two states that agree in every channel record have the same channel table. -/
theorem State.channels_ext {s t : State} (h : ∀ c, s.chan c = t.chan c) : s.channels = t.channels := by
  apply Vector.ext
  intro i hi
  exact h ⟨i, hi⟩

/-- Two states that agree in every job have the same set of jobs. -/
theorem State.jobs_ext {s t : State} (h : ∀ c, s.job c = t.job c) : s.jobs = t.jobs := by
  apply Vector.ext
  intro i hi
  exact h ⟨i, hi⟩

/-- Two states that agree in every key record have the same key table. -/
theorem State.keys_ext {s t : State} (h : ∀ k, s.key k = t.key k) : s.keys = t.keys := by
  apply Vector.ext
  intro i hi
  exact h ⟨i, hi⟩

@[simp] theorem State.chan_createJob_self (s : State) (c : ChannelNo) (o : JobOrigin) :
    (s.createJob c o).chan c = (s.chan c).enterCalibration :=
  State.chan_setChan_self s c _

theorem State.chan_createJob_ne (s : State) {c d : ChannelNo} (o : JobOrigin) (h : d ≠ c) :
    (s.createJob c o).chan d = s.chan d :=
  State.chan_setChan_ne s _ h

@[simp] theorem State.job_createJob_self (s : State) (c : ChannelNo) (o : JobOrigin) :
    (s.createJob c o).job c
      = some
        { serial := s.nextJob, origin := o,
          phase := firstPhase (s.chan c).config.windowMode } :=
  State.job_setJob_self s c _

theorem State.job_createJob_ne (s : State) {c d : ChannelNo} (o : JobOrigin) (h : d ≠ c) :
    (s.createJob c o).job d = s.job d :=
  State.job_setJob_ne s _ h

/-! ## The fields after each update -/

/-! ### setEngine -/

@[simp] theorem State.setEngine_pending (s : State) (e : EngineId) (x : Engine) :
    (s.setEngine e x).pending = s.pending := rfl
@[simp] theorem State.setEngine_engines (s : State) (e : EngineId) (x : Engine) :
    (s.setEngine e x).engines = s.engines.set e x := rfl
@[simp] theorem State.setEngine_channels (s : State) (e : EngineId) (x : Engine) :
    (s.setEngine e x).channels = s.channels := rfl
@[simp] theorem State.setEngine_jobs (s : State) (e : EngineId) (x : Engine) :
    (s.setEngine e x).jobs = s.jobs := rfl
@[simp] theorem State.setEngine_nextJob (s : State) (e : EngineId) (x : Engine) :
    (s.setEngine e x).nextJob = s.nextJob := rfl
@[simp] theorem State.setEngine_sched (s : State) (e : EngineId) (x : Engine) :
    (s.setEngine e x).sched = s.sched := rfl
@[simp] theorem State.setEngine_keys (s : State) (e : EngineId) (x : Engine) :
    (s.setEngine e x).keys = s.keys := rfl
@[simp] theorem State.setEngine_queue (s : State) (e : EngineId) (x : Engine) :
    (s.setEngine e x).queue = s.queue := rfl
@[simp] theorem State.setEngine_link (s : State) (e : EngineId) (x : Engine) :
    (s.setEngine e x).link = s.link := rfl
@[simp] theorem State.setEngine_table (s : State) (e : EngineId) (x : Engine) :
    (s.setEngine e x).table = s.table := rfl
@[simp] theorem State.setEngine_lastCause (s : State) (e : EngineId) (x : Engine) :
    (s.setEngine e x).lastCause = s.lastCause := rfl
@[simp] theorem State.setEngine_inReset (s : State) (e : EngineId) (x : Engine) :
    (s.setEngine e x).inReset = s.inReset := rfl
@[simp] theorem State.setEngine_bus (s : State) (e : EngineId) (x : Engine) :
    (s.setEngine e x).bus = s.bus := rfl
@[simp] theorem State.setEngine_lines (s : State) (e : EngineId) (x : Engine) :
    (s.setEngine e x).lines = s.lines := rfl
@[simp] theorem State.setEngine_freeCount (s : State) (e : EngineId) (x : Engine) :
    (s.setEngine e x).freeCount = s.freeCount := rfl

/-! ### abandonBursts -/

@[simp] theorem State.abandonBursts_pending (s : State) :
    (s.abandonBursts).pending = s.pending := rfl
@[simp] theorem State.abandonBursts_engines (s : State) :
    (s.abandonBursts).engines = ⟨.idle, .idle, .idle, .idle⟩ := rfl
@[simp] theorem State.abandonBursts_channels (s : State) :
    (s.abandonBursts).channels = s.channels := rfl
@[simp] theorem State.abandonBursts_jobs (s : State) : (s.abandonBursts).jobs = s.jobs := rfl
@[simp] theorem State.abandonBursts_nextJob (s : State) :
    (s.abandonBursts).nextJob = s.nextJob := rfl
@[simp] theorem State.abandonBursts_sched (s : State) : (s.abandonBursts).sched = s.sched := rfl
@[simp] theorem State.abandonBursts_keys (s : State) : (s.abandonBursts).keys = s.keys := rfl
@[simp] theorem State.abandonBursts_queue (s : State) : (s.abandonBursts).queue = s.queue := rfl
@[simp] theorem State.abandonBursts_link (s : State) : (s.abandonBursts).link = s.link := rfl
@[simp] theorem State.abandonBursts_table (s : State) : (s.abandonBursts).table = s.table := rfl
@[simp] theorem State.abandonBursts_lastCause (s : State) :
    (s.abandonBursts).lastCause = s.lastCause := rfl
@[simp] theorem State.abandonBursts_inReset (s : State) :
    (s.abandonBursts).inReset = s.inReset := rfl
@[simp] theorem State.abandonBursts_bus (s : State) :
    (s.abandonBursts).bus = s.bus := rfl
@[simp] theorem State.abandonBursts_lines (s : State) :
    (s.abandonBursts).lines = s.lines := rfl
@[simp] theorem State.abandonBursts_freeCount (s : State) :
    (s.abandonBursts).freeCount = s.freeCount := rfl

/-! ### setChan -/

@[simp] theorem State.setChan_pending (s : State) (c : ChannelNo) (x : Channel) :
    (s.setChan c x).pending = s.pending := rfl
@[simp] theorem State.setChan_engines (s : State) (c : ChannelNo) (x : Channel) :
    (s.setChan c x).engines = s.engines := rfl
@[simp] theorem State.setChan_channels (s : State) (c : ChannelNo) (x : Channel) :
    (s.setChan c x).channels = s.channels.set c x := rfl
@[simp] theorem State.setChan_jobs (s : State) (c : ChannelNo) (x : Channel) :
    (s.setChan c x).jobs = s.jobs := rfl
@[simp] theorem State.setChan_nextJob (s : State) (c : ChannelNo) (x : Channel) :
    (s.setChan c x).nextJob = s.nextJob := rfl
@[simp] theorem State.setChan_sched (s : State) (c : ChannelNo) (x : Channel) :
    (s.setChan c x).sched = s.sched := rfl
@[simp] theorem State.setChan_keys (s : State) (c : ChannelNo) (x : Channel) :
    (s.setChan c x).keys = s.keys := rfl
@[simp] theorem State.setChan_queue (s : State) (c : ChannelNo) (x : Channel) :
    (s.setChan c x).queue = s.queue := rfl
@[simp] theorem State.setChan_link (s : State) (c : ChannelNo) (x : Channel) :
    (s.setChan c x).link = s.link := rfl
@[simp] theorem State.setChan_table (s : State) (c : ChannelNo) (x : Channel) :
    (s.setChan c x).table = s.table := rfl
@[simp] theorem State.setChan_lastCause (s : State) (c : ChannelNo) (x : Channel) :
    (s.setChan c x).lastCause = s.lastCause := rfl
@[simp] theorem State.setChan_inReset (s : State) (c : ChannelNo) (x : Channel) :
    (s.setChan c x).inReset = s.inReset := rfl
@[simp] theorem State.setChan_bus (s : State) (c : ChannelNo) (x : Channel) :
    (s.setChan c x).bus = s.bus := rfl
@[simp] theorem State.setChan_lines (s : State) (c : ChannelNo) (x : Channel) :
    (s.setChan c x).lines = s.lines := rfl
@[simp] theorem State.setChan_freeCount (s : State) (c : ChannelNo) (x : Channel) :
    (s.setChan c x).freeCount = s.freeCount := rfl

/-! ### mapChannels -/

@[simp] theorem State.mapChannels_pending (s : State) (f : ChannelNo → Channel → Channel) :
    (s.mapChannels f).pending = s.pending := by simp only [State.mapChannels]
@[simp] theorem State.mapChannels_engines (s : State) (f : ChannelNo → Channel → Channel) :
    (s.mapChannels f).engines = s.engines := by simp only [State.mapChannels]
@[simp] theorem State.mapChannels_channels (s : State) (f : ChannelNo → Channel → Channel) :
    (s.mapChannels f).channels = Vector.ofFn fun c => f c s.channels[c] := by simp only [State.mapChannels]
@[simp] theorem State.mapChannels_jobs (s : State) (f : ChannelNo → Channel → Channel) :
    (s.mapChannels f).jobs = s.jobs := by simp only [State.mapChannels]
@[simp] theorem State.mapChannels_nextJob (s : State) (f : ChannelNo → Channel → Channel) :
    (s.mapChannels f).nextJob = s.nextJob := by simp only [State.mapChannels]
@[simp] theorem State.mapChannels_sched (s : State) (f : ChannelNo → Channel → Channel) :
    (s.mapChannels f).sched = s.sched := by simp only [State.mapChannels]
@[simp] theorem State.mapChannels_keys (s : State) (f : ChannelNo → Channel → Channel) :
    (s.mapChannels f).keys = s.keys := by simp only [State.mapChannels]
@[simp] theorem State.mapChannels_queue (s : State) (f : ChannelNo → Channel → Channel) :
    (s.mapChannels f).queue = s.queue := by simp only [State.mapChannels]
@[simp] theorem State.mapChannels_link (s : State) (f : ChannelNo → Channel → Channel) :
    (s.mapChannels f).link = s.link := by simp only [State.mapChannels]
@[simp] theorem State.mapChannels_table (s : State) (f : ChannelNo → Channel → Channel) :
    (s.mapChannels f).table = s.table := by simp only [State.mapChannels]
@[simp] theorem State.mapChannels_lastCause (s : State) (f : ChannelNo → Channel → Channel) :
    (s.mapChannels f).lastCause = s.lastCause := by simp only [State.mapChannels]
@[simp] theorem State.mapChannels_inReset (s : State) (f : ChannelNo → Channel → Channel) :
    (s.mapChannels f).inReset = s.inReset := by simp only [State.mapChannels]
@[simp] theorem State.mapChannels_bus (s : State) (f : ChannelNo → Channel → Channel) :
    (s.mapChannels f).bus = s.bus := by simp only [State.mapChannels]
@[simp] theorem State.mapChannels_lines (s : State) (f : ChannelNo → Channel → Channel) :
    (s.mapChannels f).lines = s.lines := by simp only [State.mapChannels]
@[simp] theorem State.mapChannels_freeCount (s : State) (f : ChannelNo → Channel → Channel) :
    (s.mapChannels f).freeCount = s.freeCount := by simp only [State.mapChannels]

/-! ### setJob -/

@[simp] theorem State.setJob_pending (s : State) (c : ChannelNo) (j : Option Job) :
    (s.setJob c j).pending = s.pending := rfl
@[simp] theorem State.setJob_engines (s : State) (c : ChannelNo) (j : Option Job) :
    (s.setJob c j).engines = s.engines := rfl
@[simp] theorem State.setJob_channels (s : State) (c : ChannelNo) (j : Option Job) :
    (s.setJob c j).channels = s.channels := rfl
@[simp] theorem State.setJob_jobs (s : State) (c : ChannelNo) (j : Option Job) :
    (s.setJob c j).jobs = s.jobs.set c j := rfl
@[simp] theorem State.setJob_nextJob (s : State) (c : ChannelNo) (j : Option Job) :
    (s.setJob c j).nextJob = s.nextJob := rfl
@[simp] theorem State.setJob_sched (s : State) (c : ChannelNo) (j : Option Job) :
    (s.setJob c j).sched = s.sched := rfl
@[simp] theorem State.setJob_keys (s : State) (c : ChannelNo) (j : Option Job) :
    (s.setJob c j).keys = s.keys := rfl
@[simp] theorem State.setJob_queue (s : State) (c : ChannelNo) (j : Option Job) :
    (s.setJob c j).queue = s.queue := rfl
@[simp] theorem State.setJob_link (s : State) (c : ChannelNo) (j : Option Job) :
    (s.setJob c j).link = s.link := rfl
@[simp] theorem State.setJob_table (s : State) (c : ChannelNo) (j : Option Job) :
    (s.setJob c j).table = s.table := rfl
@[simp] theorem State.setJob_lastCause (s : State) (c : ChannelNo) (j : Option Job) :
    (s.setJob c j).lastCause = s.lastCause := rfl
@[simp] theorem State.setJob_inReset (s : State) (c : ChannelNo) (j : Option Job) :
    (s.setJob c j).inReset = s.inReset := rfl
@[simp] theorem State.setJob_bus (s : State) (c : ChannelNo) (j : Option Job) :
    (s.setJob c j).bus = s.bus := rfl
@[simp] theorem State.setJob_lines (s : State) (c : ChannelNo) (j : Option Job) :
    (s.setJob c j).lines = s.lines := rfl
@[simp] theorem State.setJob_freeCount (s : State) (c : ChannelNo) (j : Option Job) :
    (s.setJob c j).freeCount = s.freeCount := rfl

/-! ### setKeyRecord -/

@[simp] theorem State.setKeyRecord_pending (s : State) (k : KeyNo) (x : Option Key) :
    (s.setKeyRecord k x).pending = s.pending := rfl
@[simp] theorem State.setKeyRecord_engines (s : State) (k : KeyNo) (x : Option Key) :
    (s.setKeyRecord k x).engines = s.engines := rfl
@[simp] theorem State.setKeyRecord_channels (s : State) (k : KeyNo) (x : Option Key) :
    (s.setKeyRecord k x).channels = s.channels := rfl
@[simp] theorem State.setKeyRecord_jobs (s : State) (k : KeyNo) (x : Option Key) :
    (s.setKeyRecord k x).jobs = s.jobs := rfl
@[simp] theorem State.setKeyRecord_nextJob (s : State) (k : KeyNo) (x : Option Key) :
    (s.setKeyRecord k x).nextJob = s.nextJob := rfl
@[simp] theorem State.setKeyRecord_sched (s : State) (k : KeyNo) (x : Option Key) :
    (s.setKeyRecord k x).sched = s.sched := rfl
@[simp] theorem State.setKeyRecord_keys (s : State) (k : KeyNo) (x : Option Key) :
    (s.setKeyRecord k x).keys = s.keys.set k x := rfl
@[simp] theorem State.setKeyRecord_queue (s : State) (k : KeyNo) (x : Option Key) :
    (s.setKeyRecord k x).queue = s.queue := rfl
@[simp] theorem State.setKeyRecord_link (s : State) (k : KeyNo) (x : Option Key) :
    (s.setKeyRecord k x).link = s.link := rfl
@[simp] theorem State.setKeyRecord_table (s : State) (k : KeyNo) (x : Option Key) :
    (s.setKeyRecord k x).table = s.table := rfl
@[simp] theorem State.setKeyRecord_lastCause (s : State) (k : KeyNo) (x : Option Key) :
    (s.setKeyRecord k x).lastCause = s.lastCause := rfl
@[simp] theorem State.setKeyRecord_inReset (s : State) (k : KeyNo) (x : Option Key) :
    (s.setKeyRecord k x).inReset = s.inReset := rfl
@[simp] theorem State.setKeyRecord_bus (s : State) (k : KeyNo) (x : Option Key) :
    (s.setKeyRecord k x).bus = s.bus := rfl
@[simp] theorem State.setKeyRecord_lines (s : State) (k : KeyNo) (x : Option Key) :
    (s.setKeyRecord k x).lines = s.lines := rfl
@[simp] theorem State.setKeyRecord_freeCount (s : State) (k : KeyNo) (x : Option Key) :
    (s.setKeyRecord k x).freeCount = s.freeCount := rfl

/-! ### mapKeys -/

@[simp] theorem State.mapKeys_pending (s : State) (f : KeyNo → Option Key) :
    (s.mapKeys f).pending = s.pending := by simp only [State.mapKeys]
@[simp] theorem State.mapKeys_engines (s : State) (f : KeyNo → Option Key) :
    (s.mapKeys f).engines = s.engines := by simp only [State.mapKeys]
@[simp] theorem State.mapKeys_channels (s : State) (f : KeyNo → Option Key) :
    (s.mapKeys f).channels = s.channels := by simp only [State.mapKeys]
@[simp] theorem State.mapKeys_jobs (s : State) (f : KeyNo → Option Key) :
    (s.mapKeys f).jobs = s.jobs := by simp only [State.mapKeys]
@[simp] theorem State.mapKeys_nextJob (s : State) (f : KeyNo → Option Key) :
    (s.mapKeys f).nextJob = s.nextJob := by simp only [State.mapKeys]
@[simp] theorem State.mapKeys_sched (s : State) (f : KeyNo → Option Key) :
    (s.mapKeys f).sched = s.sched := by simp only [State.mapKeys]
@[simp] theorem State.mapKeys_keys (s : State) (f : KeyNo → Option Key) :
    (s.mapKeys f).keys = Vector.ofFn f := by simp only [State.mapKeys]
@[simp] theorem State.mapKeys_queue (s : State) (f : KeyNo → Option Key) :
    (s.mapKeys f).queue = s.queue := by simp only [State.mapKeys]
@[simp] theorem State.mapKeys_link (s : State) (f : KeyNo → Option Key) :
    (s.mapKeys f).link = s.link := by simp only [State.mapKeys]
@[simp] theorem State.mapKeys_table (s : State) (f : KeyNo → Option Key) :
    (s.mapKeys f).table = s.table := by simp only [State.mapKeys]
@[simp] theorem State.mapKeys_lastCause (s : State) (f : KeyNo → Option Key) :
    (s.mapKeys f).lastCause = s.lastCause := by simp only [State.mapKeys]
@[simp] theorem State.mapKeys_inReset (s : State) (f : KeyNo → Option Key) :
    (s.mapKeys f).inReset = s.inReset := by simp only [State.mapKeys]
@[simp] theorem State.mapKeys_bus (s : State) (f : KeyNo → Option Key) :
    (s.mapKeys f).bus = s.bus := by simp only [State.mapKeys]
@[simp] theorem State.mapKeys_lines (s : State) (f : KeyNo → Option Key) :
    (s.mapKeys f).lines = s.lines := by simp only [State.mapKeys]
@[simp] theorem State.mapKeys_freeCount (s : State) (f : KeyNo → Option Key) :
    (s.mapKeys f).freeCount = s.freeCount := by simp only [State.mapKeys]

/-! ### withSched -/

@[simp] theorem State.withSched_pending (s : State) (f : Scheduler → Scheduler) :
    (s.withSched f).pending = s.pending := rfl
@[simp] theorem State.withSched_engines (s : State) (f : Scheduler → Scheduler) :
    (s.withSched f).engines = s.engines := rfl
@[simp] theorem State.withSched_channels (s : State) (f : Scheduler → Scheduler) :
    (s.withSched f).channels = s.channels := rfl
@[simp] theorem State.withSched_jobs (s : State) (f : Scheduler → Scheduler) :
    (s.withSched f).jobs = s.jobs := rfl
@[simp] theorem State.withSched_nextJob (s : State) (f : Scheduler → Scheduler) :
    (s.withSched f).nextJob = s.nextJob := rfl
@[simp] theorem State.withSched_sched (s : State) (f : Scheduler → Scheduler) :
    (s.withSched f).sched = f s.sched := rfl
@[simp] theorem State.withSched_keys (s : State) (f : Scheduler → Scheduler) :
    (s.withSched f).keys = s.keys := rfl
@[simp] theorem State.withSched_queue (s : State) (f : Scheduler → Scheduler) :
    (s.withSched f).queue = s.queue := rfl
@[simp] theorem State.withSched_link (s : State) (f : Scheduler → Scheduler) :
    (s.withSched f).link = s.link := rfl
@[simp] theorem State.withSched_table (s : State) (f : Scheduler → Scheduler) :
    (s.withSched f).table = s.table := rfl
@[simp] theorem State.withSched_lastCause (s : State) (f : Scheduler → Scheduler) :
    (s.withSched f).lastCause = s.lastCause := rfl
@[simp] theorem State.withSched_inReset (s : State) (f : Scheduler → Scheduler) :
    (s.withSched f).inReset = s.inReset := rfl
@[simp] theorem State.withSched_bus (s : State) (f : Scheduler → Scheduler) :
    (s.withSched f).bus = s.bus := rfl
@[simp] theorem State.withSched_lines (s : State) (f : Scheduler → Scheduler) :
    (s.withSched f).lines = s.lines := rfl
@[simp] theorem State.withSched_freeCount (s : State) (f : Scheduler → Scheduler) :
    (s.withSched f).freeCount = s.freeCount := rfl

/-! ### withLink -/

@[simp] theorem State.withLink_pending (s : State) (l : LinkPort) :
    (s.withLink l).pending = s.pending := rfl
@[simp] theorem State.withLink_engines (s : State) (l : LinkPort) :
    (s.withLink l).engines = s.engines := rfl
@[simp] theorem State.withLink_channels (s : State) (l : LinkPort) :
    (s.withLink l).channels = s.channels := rfl
@[simp] theorem State.withLink_jobs (s : State) (l : LinkPort) : (s.withLink l).jobs = s.jobs := rfl
@[simp] theorem State.withLink_nextJob (s : State) (l : LinkPort) :
    (s.withLink l).nextJob = s.nextJob := rfl
@[simp] theorem State.withLink_sched (s : State) (l : LinkPort) :
    (s.withLink l).sched = s.sched := rfl
@[simp] theorem State.withLink_keys (s : State) (l : LinkPort) : (s.withLink l).keys = s.keys := rfl
@[simp] theorem State.withLink_queue (s : State) (l : LinkPort) :
    (s.withLink l).queue = s.queue := rfl
@[simp] theorem State.withLink_link (s : State) (l : LinkPort) : (s.withLink l).link = l := rfl
@[simp] theorem State.withLink_table (s : State) (l : LinkPort) :
    (s.withLink l).table = s.table := rfl
@[simp] theorem State.withLink_lastCause (s : State) (l : LinkPort) :
    (s.withLink l).lastCause = s.lastCause := rfl
@[simp] theorem State.withLink_inReset (s : State) (l : LinkPort) :
    (s.withLink l).inReset = s.inReset := rfl
@[simp] theorem State.withLink_bus (s : State) (l : LinkPort) :
    (s.withLink l).bus = s.bus := rfl
@[simp] theorem State.withLink_lines (s : State) (l : LinkPort) :
    (s.withLink l).lines = s.lines := rfl
@[simp] theorem State.withLink_freeCount (s : State) (l : LinkPort) :
    (s.withLink l).freeCount = s.freeCount := rfl

/-! ### withBus -/

@[simp] theorem State.withBus_pending (s : State) (b : Bus) :
    (s.withBus b).pending = s.pending := rfl
@[simp] theorem State.withBus_engines (s : State) (b : Bus) :
    (s.withBus b).engines = s.engines := rfl
@[simp] theorem State.withBus_channels (s : State) (b : Bus) :
    (s.withBus b).channels = s.channels := rfl
@[simp] theorem State.withBus_jobs (s : State) (b : Bus) : (s.withBus b).jobs = s.jobs := rfl
@[simp] theorem State.withBus_nextJob (s : State) (b : Bus) :
    (s.withBus b).nextJob = s.nextJob := rfl
@[simp] theorem State.withBus_sched (s : State) (b : Bus) : (s.withBus b).sched = s.sched := rfl
@[simp] theorem State.withBus_keys (s : State) (b : Bus) : (s.withBus b).keys = s.keys := rfl
@[simp] theorem State.withBus_queue (s : State) (b : Bus) : (s.withBus b).queue = s.queue := rfl
@[simp] theorem State.withBus_link (s : State) (b : Bus) : (s.withBus b).link = s.link := rfl
@[simp] theorem State.withBus_bus (s : State) (b : Bus) : (s.withBus b).bus = b := rfl
@[simp] theorem State.withBus_lines (s : State) (b : Bus) : (s.withBus b).lines = s.lines := rfl
@[simp] theorem State.withBus_table (s : State) (b : Bus) : (s.withBus b).table = s.table := rfl
@[simp] theorem State.withBus_lastCause (s : State) (b : Bus) :
    (s.withBus b).lastCause = s.lastCause := rfl
@[simp] theorem State.withBus_inReset (s : State) (b : Bus) :
    (s.withBus b).inReset = s.inReset := rfl
@[simp] theorem State.withBus_freeCount (s : State) (b : Bus) :
    (s.withBus b).freeCount = s.freeCount := rfl

/-! ### spell -/

@[simp] theorem State.spell_pending (s : State) (cs : List Instr) :
    (s.spell cs).pending = cs ++ s.pending := rfl
@[simp] theorem State.spell_engines (s : State) (cs : List Instr) :
    (s.spell cs).engines = s.engines := rfl
@[simp] theorem State.spell_channels (s : State) (cs : List Instr) :
    (s.spell cs).channels = s.channels := rfl
@[simp] theorem State.spell_jobs (s : State) (cs : List Instr) : (s.spell cs).jobs = s.jobs := rfl
@[simp] theorem State.spell_nextJob (s : State) (cs : List Instr) :
    (s.spell cs).nextJob = s.nextJob := rfl
@[simp] theorem State.spell_sched (s : State) (cs : List Instr) :
    (s.spell cs).sched = s.sched := rfl
@[simp] theorem State.spell_keys (s : State) (cs : List Instr) : (s.spell cs).keys = s.keys := rfl
@[simp] theorem State.spell_queue (s : State) (cs : List Instr) :
    (s.spell cs).queue = s.queue := rfl
@[simp] theorem State.spell_link (s : State) (cs : List Instr) : (s.spell cs).link = s.link := rfl
@[simp] theorem State.spell_bus (s : State) (cs : List Instr) : (s.spell cs).bus = s.bus := rfl
@[simp] theorem State.spell_lines (s : State) (cs : List Instr) :
    (s.spell cs).lines = s.lines := rfl
@[simp] theorem State.spell_table (s : State) (cs : List Instr) :
    (s.spell cs).table = s.table := rfl
@[simp] theorem State.spell_lastCause (s : State) (cs : List Instr) :
    (s.spell cs).lastCause = s.lastCause := rfl
@[simp] theorem State.spell_inReset (s : State) (cs : List Instr) :
    (s.spell cs).inReset = s.inReset := rfl
@[simp] theorem State.spell_freeCount (s : State) (cs : List Instr) :
    (s.spell cs).freeCount = s.freeCount := rfl

/-! ### post -/

@[simp] theorem State.post_pending (s : State) (b : Body) : (s.post b).pending = s.pending := rfl
@[simp] theorem State.post_engines (s : State) (b : Body) : (s.post b).engines = s.engines := rfl
@[simp] theorem State.post_channels (s : State) (b : Body) : (s.post b).channels = s.channels := rfl
@[simp] theorem State.post_jobs (s : State) (b : Body) : (s.post b).jobs = s.jobs := rfl
@[simp] theorem State.post_nextJob (s : State) (b : Body) : (s.post b).nextJob = s.nextJob := rfl
@[simp] theorem State.post_sched (s : State) (b : Body) : (s.post b).sched = s.sched := rfl
@[simp] theorem State.post_keys (s : State) (b : Body) : (s.post b).keys = s.keys := rfl
@[simp] theorem State.post_queue (s : State) (b : Body) :
    (s.post b).queue = s.queue.offer s.table.length b := rfl
@[simp] theorem State.post_link (s : State) (b : Body) : (s.post b).link = s.link := rfl
@[simp] theorem State.post_table (s : State) (b : Body) : (s.post b).table = s.table := rfl
@[simp] theorem State.post_lastCause (s : State) (b : Body) :
    (s.post b).lastCause = s.lastCause := rfl
@[simp] theorem State.post_inReset (s : State) (b : Body) : (s.post b).inReset = s.inReset := rfl
@[simp] theorem State.post_bus (s : State) (b : Body) : (s.post b).bus = s.bus := rfl
@[simp] theorem State.post_lines (s : State) (b : Body) : (s.post b).lines = s.lines := rfl
@[simp] theorem State.post_freeCount (s : State) (b : Body) :
    (s.post b).freeCount = s.freeCount := rfl

/-! ### answer -/

@[simp] theorem State.answer_pending (s : State) (b : Body) :
    (s.answer b).pending = s.pending := rfl
@[simp] theorem State.answer_engines (s : State) (b : Body) :
    (s.answer b).engines = s.engines := rfl
@[simp] theorem State.answer_channels (s : State) (b : Body) :
    (s.answer b).channels = s.channels := rfl
@[simp] theorem State.answer_jobs (s : State) (b : Body) : (s.answer b).jobs = s.jobs := rfl
@[simp] theorem State.answer_nextJob (s : State) (b : Body) :
    (s.answer b).nextJob = s.nextJob := rfl
@[simp] theorem State.answer_sched (s : State) (b : Body) : (s.answer b).sched = s.sched := rfl
@[simp] theorem State.answer_keys (s : State) (b : Body) : (s.answer b).keys = s.keys := rfl
@[simp] theorem State.answer_queue (s : State) (b : Body) :
    (s.answer b).queue = s.queue.join b := rfl
@[simp] theorem State.answer_link (s : State) (b : Body) : (s.answer b).link = s.link := rfl
@[simp] theorem State.answer_table (s : State) (b : Body) : (s.answer b).table = s.table := rfl
@[simp] theorem State.answer_lastCause (s : State) (b : Body) :
    (s.answer b).lastCause = s.lastCause := rfl
@[simp] theorem State.answer_inReset (s : State) (b : Body) :
    (s.answer b).inReset = s.inReset := rfl
@[simp] theorem State.answer_bus (s : State) (b : Body) :
    (s.answer b).bus = s.bus := rfl
@[simp] theorem State.answer_lines (s : State) (b : Body) :
    (s.answer b).lines = s.lines := rfl
@[simp] theorem State.answer_freeCount (s : State) (b : Body) :
    (s.answer b).freeCount = s.freeCount := rfl

/-! ### reply -/

@[simp] theorem State.reply_pending (s : State) (tag : Byte) (status : Status) (data : ReplyData) :
    (s.reply tag status data).pending = s.pending := rfl
@[simp] theorem State.reply_engines (s : State) (tag : Byte) (status : Status) (data : ReplyData) :
    (s.reply tag status data).engines = s.engines := rfl
@[simp] theorem State.reply_channels (s : State) (tag : Byte) (status : Status) (data : ReplyData) :
    (s.reply tag status data).channels = s.channels := rfl
@[simp] theorem State.reply_jobs (s : State) (tag : Byte) (status : Status) (data : ReplyData) :
    (s.reply tag status data).jobs = s.jobs := rfl
@[simp] theorem State.reply_nextJob (s : State) (tag : Byte) (status : Status) (data : ReplyData) :
    (s.reply tag status data).nextJob = s.nextJob := rfl
@[simp] theorem State.reply_sched (s : State) (tag : Byte) (status : Status) (data : ReplyData) :
    (s.reply tag status data).sched = s.sched := rfl
@[simp] theorem State.reply_keys (s : State) (tag : Byte) (status : Status) (data : ReplyData) :
    (s.reply tag status data).keys = s.keys := rfl
@[simp] theorem State.reply_queue (s : State) (tag : Byte) (status : Status) (data : ReplyData) :
    (s.reply tag status data).queue = s.queue.join (.reply tag status data) := rfl
@[simp] theorem State.reply_link (s : State) (tag : Byte) (status : Status) (data : ReplyData) :
    (s.reply tag status data).link = s.link := rfl
@[simp] theorem State.reply_table (s : State) (tag : Byte) (status : Status) (data : ReplyData) :
    (s.reply tag status data).table = s.table := rfl
@[simp] theorem State.reply_lastCause (s : State) (tag : Byte) (status : Status) (data : ReplyData) :
    (s.reply tag status data).lastCause = s.lastCause := rfl
@[simp] theorem State.reply_inReset (s : State) (tag : Byte) (status : Status) (data : ReplyData) :
    (s.reply tag status data).inReset = s.inReset := rfl
@[simp] theorem State.reply_bus (s : State) (tag : Byte) (status : Status) (data : ReplyData) :
    (s.reply tag status data).bus = s.bus := rfl
@[simp] theorem State.reply_lines (s : State) (tag : Byte) (status : Status) (data : ReplyData) :
    (s.reply tag status data).lines = s.lines := rfl
@[simp] theorem State.reply_freeCount (s : State) (tag : Byte) (status : Status) (data : ReplyData) :
    (s.reply tag status data).freeCount = s.freeCount := rfl

/-! ### completeEntry -/

@[simp] theorem State.completeEntry_pending (s : State) (e : PendingEntry) (status : Status) :
    (s.completeEntry e status).pending = s.pending := rfl
@[simp] theorem State.completeEntry_engines (s : State) (e : PendingEntry) (status : Status) :
    (s.completeEntry e status).engines = s.engines := rfl
@[simp] theorem State.completeEntry_channels (s : State) (e : PendingEntry) (status : Status) :
    (s.completeEntry e status).channels = s.channels := rfl
@[simp] theorem State.completeEntry_jobs (s : State) (e : PendingEntry) (status : Status) :
    (s.completeEntry e status).jobs = s.jobs := rfl
@[simp] theorem State.completeEntry_nextJob (s : State) (e : PendingEntry) (status : Status) :
    (s.completeEntry e status).nextJob = s.nextJob := rfl
@[simp] theorem State.completeEntry_sched (s : State) (e : PendingEntry) (status : Status) :
    (s.completeEntry e status).sched = s.sched := rfl
@[simp] theorem State.completeEntry_keys (s : State) (e : PendingEntry) (status : Status) :
    (s.completeEntry e status).keys = s.keys := rfl
@[simp] theorem State.completeEntry_queue (s : State) (e : PendingEntry) (status : Status) :
    (s.completeEntry e status).queue = s.queue.join (.complete e.tag status e.work) := rfl
@[simp] theorem State.completeEntry_link (s : State) (e : PendingEntry) (status : Status) :
    (s.completeEntry e status).link = s.link := rfl
@[simp] theorem State.completeEntry_table (s : State) (e : PendingEntry) (status : Status) :
    (s.completeEntry e status).table = s.table.erase e := rfl
@[simp] theorem State.completeEntry_lastCause (s : State) (e : PendingEntry) (status : Status) :
    (s.completeEntry e status).lastCause = s.lastCause := rfl
@[simp] theorem State.completeEntry_inReset (s : State) (e : PendingEntry) (status : Status) :
    (s.completeEntry e status).inReset = s.inReset := rfl
@[simp] theorem State.completeEntry_bus (s : State) (e : PendingEntry) (status : Status) :
    (s.completeEntry e status).bus = s.bus := rfl
@[simp] theorem State.completeEntry_lines (s : State) (e : PendingEntry) (status : Status) :
    (s.completeEntry e status).lines = s.lines := rfl
@[simp] theorem State.completeEntry_freeCount (s : State) (e : PendingEntry) (status : Status) :
    (s.completeEntry e status).freeCount = s.freeCount := rfl

/-! ### openEntry -/

@[simp] theorem State.openEntry_pending (s : State) (tag : Byte) (work : LongWork) :
    (s.openEntry tag work).pending = s.pending := rfl
@[simp] theorem State.openEntry_engines (s : State) (tag : Byte) (work : LongWork) :
    (s.openEntry tag work).engines = s.engines := rfl
@[simp] theorem State.openEntry_channels (s : State) (tag : Byte) (work : LongWork) :
    (s.openEntry tag work).channels = s.channels := rfl
@[simp] theorem State.openEntry_jobs (s : State) (tag : Byte) (work : LongWork) :
    (s.openEntry tag work).jobs = s.jobs := rfl
@[simp] theorem State.openEntry_nextJob (s : State) (tag : Byte) (work : LongWork) :
    (s.openEntry tag work).nextJob = s.nextJob := rfl
@[simp] theorem State.openEntry_sched (s : State) (tag : Byte) (work : LongWork) :
    (s.openEntry tag work).sched = s.sched := rfl
@[simp] theorem State.openEntry_keys (s : State) (tag : Byte) (work : LongWork) :
    (s.openEntry tag work).keys = s.keys := rfl
@[simp] theorem State.openEntry_queue (s : State) (tag : Byte) (work : LongWork) :
    (s.openEntry tag work).queue = s.queue := rfl
@[simp] theorem State.openEntry_link (s : State) (tag : Byte) (work : LongWork) :
    (s.openEntry tag work).link = s.link := rfl
@[simp] theorem State.openEntry_table (s : State) (tag : Byte) (work : LongWork) :
    (s.openEntry tag work).table = s.table ++ [{ tag := tag, work := work }] := rfl
@[simp] theorem State.openEntry_lastCause (s : State) (tag : Byte) (work : LongWork) :
    (s.openEntry tag work).lastCause = s.lastCause := rfl
@[simp] theorem State.openEntry_inReset (s : State) (tag : Byte) (work : LongWork) :
    (s.openEntry tag work).inReset = s.inReset := rfl
@[simp] theorem State.openEntry_bus (s : State) (tag : Byte) (work : LongWork) :
    (s.openEntry tag work).bus = s.bus := rfl
@[simp] theorem State.openEntry_lines (s : State) (tag : Byte) (work : LongWork) :
    (s.openEntry tag work).lines = s.lines := rfl
@[simp] theorem State.openEntry_freeCount (s : State) (tag : Byte) (work : LongWork) :
    (s.openEntry tag work).freeCount = s.freeCount := rfl

/-! ### createJob -/

@[simp] theorem State.createJob_pending (s : State) (c : ChannelNo) (o : JobOrigin) :
    (s.createJob c o).pending = s.pending := rfl
@[simp] theorem State.createJob_engines (s : State) (c : ChannelNo) (o : JobOrigin) :
    (s.createJob c o).engines = s.engines := rfl
@[simp] theorem State.createJob_channels (s : State) (c : ChannelNo) (o : JobOrigin) :
    (s.createJob c o).channels = s.channels.set c (s.chan c).enterCalibration := rfl
@[simp] theorem State.createJob_jobs (s : State) (c : ChannelNo) (o : JobOrigin) :
    (s.createJob c o).jobs = s.jobs.set c (some { serial := s.nextJob, origin := o, phase := firstPhase (s.chan c).config.windowMode }) := rfl
@[simp] theorem State.createJob_nextJob (s : State) (c : ChannelNo) (o : JobOrigin) :
    (s.createJob c o).nextJob = s.nextJob + 1 := rfl
@[simp] theorem State.createJob_sched (s : State) (c : ChannelNo) (o : JobOrigin) :
    (s.createJob c o).sched = s.sched := rfl
@[simp] theorem State.createJob_keys (s : State) (c : ChannelNo) (o : JobOrigin) :
    (s.createJob c o).keys = s.keys := rfl
@[simp] theorem State.createJob_queue (s : State) (c : ChannelNo) (o : JobOrigin) :
    (s.createJob c o).queue = s.queue := rfl
@[simp] theorem State.createJob_link (s : State) (c : ChannelNo) (o : JobOrigin) :
    (s.createJob c o).link = s.link := rfl
@[simp] theorem State.createJob_table (s : State) (c : ChannelNo) (o : JobOrigin) :
    (s.createJob c o).table = s.table := rfl
@[simp] theorem State.createJob_lastCause (s : State) (c : ChannelNo) (o : JobOrigin) :
    (s.createJob c o).lastCause = s.lastCause := rfl
@[simp] theorem State.createJob_inReset (s : State) (c : ChannelNo) (o : JobOrigin) :
    (s.createJob c o).inReset = s.inReset := rfl
@[simp] theorem State.createJob_bus (s : State) (c : ChannelNo) (o : JobOrigin) :
    (s.createJob c o).bus = s.bus := rfl
@[simp] theorem State.createJob_lines (s : State) (c : ChannelNo) (o : JobOrigin) :
    (s.createJob c o).lines = s.lines := rfl
@[simp] theorem State.createJob_freeCount (s : State) (c : ChannelNo) (o : JobOrigin) :
    (s.createJob c o).freeCount = s.freeCount := rfl

/-! ### setPeriod -/

@[simp] theorem State.setPeriod_pending (s : State) (t : Timer) :
    (s.setPeriod t).pending = s.pending := rfl
@[simp] theorem State.setPeriod_engines (s : State) (t : Timer) :
    (s.setPeriod t).engines = s.engines := rfl
@[simp] theorem State.setPeriod_channels (s : State) (t : Timer) :
    (s.setPeriod t).channels = s.channels := rfl
@[simp] theorem State.setPeriod_jobs (s : State) (t : Timer) : (s.setPeriod t).jobs = s.jobs := rfl
@[simp] theorem State.setPeriod_nextJob (s : State) (t : Timer) :
    (s.setPeriod t).nextJob = s.nextJob := rfl
@[simp] theorem State.setPeriod_sched (s : State) (t : Timer) :
    (s.setPeriod t).sched = { s.sched with periodTimer := t } := rfl
@[simp] theorem State.setPeriod_keys (s : State) (t : Timer) : (s.setPeriod t).keys = s.keys := rfl
@[simp] theorem State.setPeriod_queue (s : State) (t : Timer) :
    (s.setPeriod t).queue = s.queue := rfl
@[simp] theorem State.setPeriod_link (s : State) (t : Timer) : (s.setPeriod t).link = s.link := rfl
@[simp] theorem State.setPeriod_table (s : State) (t : Timer) :
    (s.setPeriod t).table = s.table := rfl
@[simp] theorem State.setPeriod_lastCause (s : State) (t : Timer) :
    (s.setPeriod t).lastCause = s.lastCause := rfl
@[simp] theorem State.setPeriod_inReset (s : State) (t : Timer) :
    (s.setPeriod t).inReset = s.inReset := rfl
@[simp] theorem State.setPeriod_bus (s : State) (t : Timer) :
    (s.setPeriod t).bus = s.bus := rfl
@[simp] theorem State.setPeriod_lines (s : State) (t : Timer) :
    (s.setPeriod t).lines = s.lines := rfl
@[simp] theorem State.setPeriod_freeCount (s : State) (t : Timer) :
    (s.setPeriod t).freeCount = s.freeCount := rfl

/-! ### setInactivity -/

@[simp] theorem State.setInactivity_pending (s : State) (t : InactivityTimer) :
    (s.setInactivity t).pending = s.pending := rfl
@[simp] theorem State.setInactivity_engines (s : State) (t : InactivityTimer) :
    (s.setInactivity t).engines = s.engines := rfl
@[simp] theorem State.setInactivity_channels (s : State) (t : InactivityTimer) :
    (s.setInactivity t).channels = s.channels := rfl
@[simp] theorem State.setInactivity_jobs (s : State) (t : InactivityTimer) :
    (s.setInactivity t).jobs = s.jobs := rfl
@[simp] theorem State.setInactivity_nextJob (s : State) (t : InactivityTimer) :
    (s.setInactivity t).nextJob = s.nextJob := rfl
@[simp] theorem State.setInactivity_sched (s : State) (t : InactivityTimer) :
    (s.setInactivity t).sched = { s.sched with inactivity := t } := rfl
@[simp] theorem State.setInactivity_keys (s : State) (t : InactivityTimer) :
    (s.setInactivity t).keys = s.keys := rfl
@[simp] theorem State.setInactivity_queue (s : State) (t : InactivityTimer) :
    (s.setInactivity t).queue = s.queue := rfl
@[simp] theorem State.setInactivity_link (s : State) (t : InactivityTimer) :
    (s.setInactivity t).link = s.link := rfl
@[simp] theorem State.setInactivity_table (s : State) (t : InactivityTimer) :
    (s.setInactivity t).table = s.table := rfl
@[simp] theorem State.setInactivity_lastCause (s : State) (t : InactivityTimer) :
    (s.setInactivity t).lastCause = s.lastCause := rfl
@[simp] theorem State.setInactivity_inReset (s : State) (t : InactivityTimer) :
    (s.setInactivity t).inReset = s.inReset := rfl
@[simp] theorem State.setInactivity_bus (s : State) (t : InactivityTimer) :
    (s.setInactivity t).bus = s.bus := rfl
@[simp] theorem State.setInactivity_lines (s : State) (t : InactivityTimer) :
    (s.setInactivity t).lines = s.lines := rfl
@[simp] theorem State.setInactivity_freeCount (s : State) (t : InactivityTimer) :
    (s.setInactivity t).freeCount = s.freeCount := rfl

/-! ### setQuiet -/

@[simp] theorem State.setQuiet_pending (s : State) (q : Bool) :
    (s.setQuiet q).pending = s.pending := rfl
@[simp] theorem State.setQuiet_engines (s : State) (q : Bool) :
    (s.setQuiet q).engines = s.engines := rfl
@[simp] theorem State.setQuiet_channels (s : State) (q : Bool) :
    (s.setQuiet q).channels = s.channels := rfl
@[simp] theorem State.setQuiet_jobs (s : State) (q : Bool) : (s.setQuiet q).jobs = s.jobs := rfl
@[simp] theorem State.setQuiet_nextJob (s : State) (q : Bool) :
    (s.setQuiet q).nextJob = s.nextJob := rfl
@[simp] theorem State.setQuiet_sched (s : State) (q : Bool) :
    (s.setQuiet q).sched = { s.sched with quiet := q } := rfl
@[simp] theorem State.setQuiet_keys (s : State) (q : Bool) : (s.setQuiet q).keys = s.keys := rfl
@[simp] theorem State.setQuiet_queue (s : State) (q : Bool) : (s.setQuiet q).queue = s.queue := rfl
@[simp] theorem State.setQuiet_link (s : State) (q : Bool) : (s.setQuiet q).link = s.link := rfl
@[simp] theorem State.setQuiet_table (s : State) (q : Bool) : (s.setQuiet q).table = s.table := rfl
@[simp] theorem State.setQuiet_lastCause (s : State) (q : Bool) :
    (s.setQuiet q).lastCause = s.lastCause := rfl
@[simp] theorem State.setQuiet_inReset (s : State) (q : Bool) :
    (s.setQuiet q).inReset = s.inReset := rfl
@[simp] theorem State.setQuiet_bus (s : State) (q : Bool) :
    (s.setQuiet q).bus = s.bus := rfl
@[simp] theorem State.setQuiet_lines (s : State) (q : Bool) :
    (s.setQuiet q).lines = s.lines := rfl
@[simp] theorem State.setQuiet_freeCount (s : State) (q : Bool) :
    (s.setQuiet q).freeCount = s.freeCount := rfl

/-! ### setCycle -/

@[simp] theorem State.setCycle_pending (s : State) (cy : Option Cycle) :
    (s.setCycle cy).pending = s.pending := rfl
@[simp] theorem State.setCycle_engines (s : State) (cy : Option Cycle) :
    (s.setCycle cy).engines = s.engines := rfl
@[simp] theorem State.setCycle_channels (s : State) (cy : Option Cycle) :
    (s.setCycle cy).channels = s.channels := rfl
@[simp] theorem State.setCycle_jobs (s : State) (cy : Option Cycle) :
    (s.setCycle cy).jobs = s.jobs := rfl
@[simp] theorem State.setCycle_nextJob (s : State) (cy : Option Cycle) :
    (s.setCycle cy).nextJob = s.nextJob := rfl
@[simp] theorem State.setCycle_sched (s : State) (cy : Option Cycle) :
    (s.setCycle cy).sched = { s.sched with cycle := cy } := rfl
@[simp] theorem State.setCycle_keys (s : State) (cy : Option Cycle) :
    (s.setCycle cy).keys = s.keys := rfl
@[simp] theorem State.setCycle_queue (s : State) (cy : Option Cycle) :
    (s.setCycle cy).queue = s.queue := rfl
@[simp] theorem State.setCycle_link (s : State) (cy : Option Cycle) :
    (s.setCycle cy).link = s.link := rfl
@[simp] theorem State.setCycle_table (s : State) (cy : Option Cycle) :
    (s.setCycle cy).table = s.table := rfl
@[simp] theorem State.setCycle_lastCause (s : State) (cy : Option Cycle) :
    (s.setCycle cy).lastCause = s.lastCause := rfl
@[simp] theorem State.setCycle_inReset (s : State) (cy : Option Cycle) :
    (s.setCycle cy).inReset = s.inReset := rfl
@[simp] theorem State.setCycle_bus (s : State) (cy : Option Cycle) :
    (s.setCycle cy).bus = s.bus := rfl
@[simp] theorem State.setCycle_lines (s : State) (cy : Option Cycle) :
    (s.setCycle cy).lines = s.lines := rfl
@[simp] theorem State.setCycle_freeCount (s : State) (cy : Option Cycle) :
    (s.setCycle cy).freeCount = s.freeCount := rfl

/-! ### startInactivity -/

@[simp] theorem State.startInactivity_pending (s : State) :
    (s.startInactivity).pending = s.pending := rfl
@[simp] theorem State.startInactivity_engines (s : State) :
    (s.startInactivity).engines = s.engines := rfl
@[simp] theorem State.startInactivity_channels (s : State) :
    (s.startInactivity).channels = s.channels := rfl
@[simp] theorem State.startInactivity_jobs (s : State) : (s.startInactivity).jobs = s.jobs := rfl
@[simp] theorem State.startInactivity_nextJob (s : State) :
    (s.startInactivity).nextJob = s.nextJob := rfl
@[simp] theorem State.startInactivity_sched (s : State) :
    (s.startInactivity).sched = { s.sched with inactivity := if s.sched.idleTime = 0 then .stopped else .running (s.sched.idleTime * 1000) } := rfl
@[simp] theorem State.startInactivity_keys (s : State) : (s.startInactivity).keys = s.keys := rfl
@[simp] theorem State.startInactivity_queue (s : State) : (s.startInactivity).queue = s.queue := rfl
@[simp] theorem State.startInactivity_link (s : State) : (s.startInactivity).link = s.link := rfl
@[simp] theorem State.startInactivity_table (s : State) : (s.startInactivity).table = s.table := rfl
@[simp] theorem State.startInactivity_lastCause (s : State) :
    (s.startInactivity).lastCause = s.lastCause := rfl
@[simp] theorem State.startInactivity_inReset (s : State) :
    (s.startInactivity).inReset = s.inReset := rfl
@[simp] theorem State.startInactivity_bus (s : State) :
    (s.startInactivity).bus = s.bus := rfl
@[simp] theorem State.startInactivity_lines (s : State) :
    (s.startInactivity).lines = s.lines := rfl
@[simp] theorem State.startInactivity_freeCount (s : State) :
    (s.startInactivity).freeCount = s.freeCount := rfl

/-! ### changeMode -/

@[simp] theorem State.changeMode_pending (s : State) (m : Mode) (cause : ModeCause) :
    (s.changeMode m cause).pending = s.pending := rfl
@[simp] theorem State.changeMode_engines (s : State) (m : Mode) (cause : ModeCause) :
    (s.changeMode m cause).engines = s.engines := rfl
@[simp] theorem State.changeMode_channels (s : State) (m : Mode) (cause : ModeCause) :
    (s.changeMode m cause).channels = s.channels := rfl
@[simp] theorem State.changeMode_jobs (s : State) (m : Mode) (cause : ModeCause) :
    (s.changeMode m cause).jobs = s.jobs := rfl
@[simp] theorem State.changeMode_nextJob (s : State) (m : Mode) (cause : ModeCause) :
    (s.changeMode m cause).nextJob = s.nextJob := rfl
@[simp] theorem State.changeMode_sched (s : State) (m : Mode) (cause : ModeCause) :
    (s.changeMode m cause).sched = { s.sched with mode := m } := rfl
@[simp] theorem State.changeMode_keys (s : State) (m : Mode) (cause : ModeCause) :
    (s.changeMode m cause).keys = s.keys := rfl
@[simp] theorem State.changeMode_queue (s : State) (m : Mode) (cause : ModeCause) :
    (s.changeMode m cause).queue = s.queue.offer s.table.length (.mode m cause) := rfl
@[simp] theorem State.changeMode_link (s : State) (m : Mode) (cause : ModeCause) :
    (s.changeMode m cause).link = s.link := rfl
@[simp] theorem State.changeMode_table (s : State) (m : Mode) (cause : ModeCause) :
    (s.changeMode m cause).table = s.table := rfl
@[simp] theorem State.changeMode_lastCause (s : State) (m : Mode) (cause : ModeCause) :
    (s.changeMode m cause).lastCause = s.lastCause := rfl
@[simp] theorem State.changeMode_inReset (s : State) (m : Mode) (cause : ModeCause) :
    (s.changeMode m cause).inReset = s.inReset := rfl
@[simp] theorem State.changeMode_bus (s : State) (m : Mode) (cause : ModeCause) :
    (s.changeMode m cause).bus = s.bus := rfl
@[simp] theorem State.changeMode_lines (s : State) (m : Mode) (cause : ModeCause) :
    (s.changeMode m cause).lines = s.lines := rfl
@[simp] theorem State.changeMode_freeCount (s : State) (m : Mode) (cause : ModeCause) :
    (s.changeMode m cause).freeCount = s.freeCount := rfl

/-! ### clearMarks -/

@[simp] theorem State.clearMarks_pending (s : State) : (s.clearMarks).pending = s.pending := rfl
@[simp] theorem State.clearMarks_engines (s : State) : (s.clearMarks).engines = s.engines := rfl
@[simp] theorem State.clearMarks_channels (s : State) : (s.clearMarks).channels = s.channels := rfl
@[simp] theorem State.clearMarks_jobs (s : State) : (s.clearMarks).jobs = s.jobs := rfl
@[simp] theorem State.clearMarks_nextJob (s : State) : (s.clearMarks).nextJob = s.nextJob := rfl
@[simp] theorem State.clearMarks_sched (s : State) :
    (s.clearMarks).sched = { s.sched with cycle := s.sched.cycle.map fun cy => { cy with late := false, startOwed := false } } := rfl
@[simp] theorem State.clearMarks_keys (s : State) : (s.clearMarks).keys = s.keys := rfl
@[simp] theorem State.clearMarks_queue (s : State) : (s.clearMarks).queue = s.queue := rfl
@[simp] theorem State.clearMarks_link (s : State) : (s.clearMarks).link = s.link := rfl
@[simp] theorem State.clearMarks_table (s : State) : (s.clearMarks).table = s.table := rfl
@[simp] theorem State.clearMarks_lastCause (s : State) :
    (s.clearMarks).lastCause = s.lastCause := rfl
@[simp] theorem State.clearMarks_inReset (s : State) : (s.clearMarks).inReset = s.inReset := rfl
@[simp] theorem State.clearMarks_bus (s : State) : (s.clearMarks).bus = s.bus := rfl
@[simp] theorem State.clearMarks_lines (s : State) : (s.clearMarks).lines = s.lines := rfl
@[simp] theorem State.clearMarks_freeCount (s : State) :
    (s.clearMarks).freeCount = s.freeCount := rfl

/-! ### oweStart -/

@[simp] theorem State.oweStart_pending (s : State) : (s.oweStart).pending = s.pending := rfl
@[simp] theorem State.oweStart_engines (s : State) : (s.oweStart).engines = s.engines := rfl
@[simp] theorem State.oweStart_channels (s : State) : (s.oweStart).channels = s.channels := rfl
@[simp] theorem State.oweStart_jobs (s : State) : (s.oweStart).jobs = s.jobs := rfl
@[simp] theorem State.oweStart_nextJob (s : State) : (s.oweStart).nextJob = s.nextJob := rfl
@[simp] theorem State.oweStart_sched (s : State) :
    (s.oweStart).sched = { s.sched with cycle := s.sched.cycle.map fun cy => { cy with startOwed := true } } := rfl
@[simp] theorem State.oweStart_keys (s : State) : (s.oweStart).keys = s.keys := rfl
@[simp] theorem State.oweStart_queue (s : State) : (s.oweStart).queue = s.queue := rfl
@[simp] theorem State.oweStart_link (s : State) : (s.oweStart).link = s.link := rfl
@[simp] theorem State.oweStart_table (s : State) : (s.oweStart).table = s.table := rfl
@[simp] theorem State.oweStart_lastCause (s : State) : (s.oweStart).lastCause = s.lastCause := rfl
@[simp] theorem State.oweStart_inReset (s : State) : (s.oweStart).inReset = s.inReset := rfl
@[simp] theorem State.oweStart_bus (s : State) : (s.oweStart).bus = s.bus := rfl
@[simp] theorem State.oweStart_lines (s : State) : (s.oweStart).lines = s.lines := rfl
@[simp] theorem State.oweStart_freeCount (s : State) : (s.oweStart).freeCount = s.freeCount := rfl

/-! ### restartDozePeriod -/

@[simp] theorem State.restartDozePeriod_pending (s : State) :
    (s.restartDozePeriod).pending = s.pending := rfl
@[simp] theorem State.restartDozePeriod_engines (s : State) :
    (s.restartDozePeriod).engines = s.engines := rfl
@[simp] theorem State.restartDozePeriod_channels (s : State) :
    (s.restartDozePeriod).channels = s.channels := rfl
@[simp] theorem State.restartDozePeriod_jobs (s : State) :
    (s.restartDozePeriod).jobs = s.jobs := rfl
@[simp] theorem State.restartDozePeriod_nextJob (s : State) :
    (s.restartDozePeriod).nextJob = s.nextJob := rfl
@[simp] theorem State.restartDozePeriod_sched (s : State) :
    (s.restartDozePeriod).sched = { s.sched with periodTimer := some s.sched.dozePeriod } := rfl
@[simp] theorem State.restartDozePeriod_keys (s : State) :
    (s.restartDozePeriod).keys = s.keys := rfl
@[simp] theorem State.restartDozePeriod_queue (s : State) :
    (s.restartDozePeriod).queue = s.queue := rfl
@[simp] theorem State.restartDozePeriod_link (s : State) :
    (s.restartDozePeriod).link = s.link := rfl
@[simp] theorem State.restartDozePeriod_table (s : State) :
    (s.restartDozePeriod).table = s.table := rfl
@[simp] theorem State.restartDozePeriod_lastCause (s : State) :
    (s.restartDozePeriod).lastCause = s.lastCause := rfl
@[simp] theorem State.restartDozePeriod_inReset (s : State) :
    (s.restartDozePeriod).inReset = s.inReset := rfl
@[simp] theorem State.restartDozePeriod_bus (s : State) :
    (s.restartDozePeriod).bus = s.bus := rfl
@[simp] theorem State.restartDozePeriod_lines (s : State) :
    (s.restartDozePeriod).lines = s.lines := rfl
@[simp] theorem State.restartDozePeriod_freeCount (s : State) :
    (s.restartDozePeriod).freeCount = s.freeCount := rfl

/-! ### countCycle -/

@[simp] theorem State.countCycle_pending (s : State) : (s.countCycle).pending = s.pending := rfl
@[simp] theorem State.countCycle_engines (s : State) : (s.countCycle).engines = s.engines := rfl
@[simp] theorem State.countCycle_channels (s : State) : (s.countCycle).channels = s.channels := rfl
@[simp] theorem State.countCycle_jobs (s : State) : (s.countCycle).jobs = s.jobs := rfl
@[simp] theorem State.countCycle_nextJob (s : State) : (s.countCycle).nextJob = s.nextJob := rfl
@[simp] theorem State.countCycle_sched (s : State) :
    (s.countCycle).sched = { s.sched with cycleCount := s.sched.cycleCount + 1 } := rfl
@[simp] theorem State.countCycle_keys (s : State) : (s.countCycle).keys = s.keys := rfl
@[simp] theorem State.countCycle_queue (s : State) : (s.countCycle).queue = s.queue := rfl
@[simp] theorem State.countCycle_link (s : State) : (s.countCycle).link = s.link := rfl
@[simp] theorem State.countCycle_table (s : State) : (s.countCycle).table = s.table := rfl
@[simp] theorem State.countCycle_lastCause (s : State) :
    (s.countCycle).lastCause = s.lastCause := rfl
@[simp] theorem State.countCycle_inReset (s : State) : (s.countCycle).inReset = s.inReset := rfl
@[simp] theorem State.countCycle_bus (s : State) : (s.countCycle).bus = s.bus := rfl
@[simp] theorem State.countCycle_lines (s : State) : (s.countCycle).lines = s.lines := rfl
@[simp] theorem State.countCycle_freeCount (s : State) :
    (s.countCycle).freeCount = s.freeCount := rfl

/-! ### setList -/

@[simp] theorem State.setList_pending (s : State) (e : EngineId) (l : List WorkItem) :
    (s.setList e l).pending = s.pending := rfl
@[simp] theorem State.setList_engines (s : State) (e : EngineId) (l : List WorkItem) :
    (s.setList e l).engines = s.engines := rfl
@[simp] theorem State.setList_channels (s : State) (e : EngineId) (l : List WorkItem) :
    (s.setList e l).channels = s.channels := rfl
@[simp] theorem State.setList_jobs (s : State) (e : EngineId) (l : List WorkItem) :
    (s.setList e l).jobs = s.jobs := rfl
@[simp] theorem State.setList_nextJob (s : State) (e : EngineId) (l : List WorkItem) :
    (s.setList e l).nextJob = s.nextJob := rfl
@[simp] theorem State.setList_sched (s : State) (e : EngineId) (l : List WorkItem) :
    (s.setList e l).sched = { s.sched with cycle := s.sched.cycle.map fun cy => { cy with lists := cy.lists.set e l } } := rfl
@[simp] theorem State.setList_keys (s : State) (e : EngineId) (l : List WorkItem) :
    (s.setList e l).keys = s.keys := rfl
@[simp] theorem State.setList_queue (s : State) (e : EngineId) (l : List WorkItem) :
    (s.setList e l).queue = s.queue := rfl
@[simp] theorem State.setList_link (s : State) (e : EngineId) (l : List WorkItem) :
    (s.setList e l).link = s.link := rfl
@[simp] theorem State.setList_table (s : State) (e : EngineId) (l : List WorkItem) :
    (s.setList e l).table = s.table := rfl
@[simp] theorem State.setList_lastCause (s : State) (e : EngineId) (l : List WorkItem) :
    (s.setList e l).lastCause = s.lastCause := rfl
@[simp] theorem State.setList_inReset (s : State) (e : EngineId) (l : List WorkItem) :
    (s.setList e l).inReset = s.inReset := rfl
@[simp] theorem State.setList_bus (s : State) (e : EngineId) (l : List WorkItem) :
    (s.setList e l).bus = s.bus := rfl
@[simp] theorem State.setList_lines (s : State) (e : EngineId) (l : List WorkItem) :
    (s.setList e l).lines = s.lines := rfl
@[simp] theorem State.setList_freeCount (s : State) (e : EngineId) (l : List WorkItem) :
    (s.setList e l).freeCount = s.freeCount := rfl

/-! ### dispatch -/

@[simp] theorem State.dispatch_pending (s : State) (e : EngineId) (r : BurstRecord) :
    (s.dispatch e r).pending = s.pending := rfl
@[simp] theorem State.dispatch_engines (s : State) (e : EngineId) (r : BurstRecord) :
    (s.dispatch e r).engines = s.engines.set e (.settle r 40) := rfl
@[simp] theorem State.dispatch_channels (s : State) (e : EngineId) (r : BurstRecord) :
    (s.dispatch e r).channels = s.channels := rfl
@[simp] theorem State.dispatch_jobs (s : State) (e : EngineId) (r : BurstRecord) :
    (s.dispatch e r).jobs = s.jobs := rfl
@[simp] theorem State.dispatch_nextJob (s : State) (e : EngineId) (r : BurstRecord) :
    (s.dispatch e r).nextJob = s.nextJob := rfl
@[simp] theorem State.dispatch_sched (s : State) (e : EngineId) (r : BurstRecord) :
    (s.dispatch e r).sched = s.sched := rfl
@[simp] theorem State.dispatch_keys (s : State) (e : EngineId) (r : BurstRecord) :
    (s.dispatch e r).keys = s.keys := rfl
@[simp] theorem State.dispatch_queue (s : State) (e : EngineId) (r : BurstRecord) :
    (s.dispatch e r).queue = s.queue := rfl
@[simp] theorem State.dispatch_link (s : State) (e : EngineId) (r : BurstRecord) :
    (s.dispatch e r).link = s.link := rfl
@[simp] theorem State.dispatch_table (s : State) (e : EngineId) (r : BurstRecord) :
    (s.dispatch e r).table = s.table := rfl
@[simp] theorem State.dispatch_lastCause (s : State) (e : EngineId) (r : BurstRecord) :
    (s.dispatch e r).lastCause = s.lastCause := rfl
@[simp] theorem State.dispatch_inReset (s : State) (e : EngineId) (r : BurstRecord) :
    (s.dispatch e r).inReset = s.inReset := rfl
@[simp] theorem State.dispatch_bus (s : State) (e : EngineId) (r : BurstRecord) :
    (s.dispatch e r).bus = s.bus := rfl
@[simp] theorem State.dispatch_lines (s : State) (e : EngineId) (r : BurstRecord) :
    (s.dispatch e r).lines = s.lines := rfl
@[simp] theorem State.dispatch_freeCount (s : State) (e : EngineId) (r : BurstRecord) :
    (s.dispatch e r).freeCount = s.freeCount := rfl

end Sys2Proof.Machine
end

