-- ==== Sys2Proof/Laws/Bus.lean ====
section
/-! SUPPORT. The lines of the bus (R150): what a change at the lines can do, and what the host hears when it
clocks a bit, a byte, an address, a START, a STOP or a repeated START, once for each. A state in the
middle of this is `s.onLines l b xs cs`: `s` with its link port, its port at the lines, the changes that
wait and the commands that wait replaced. -/

namespace Sys2Proof.Machine

/-! ## What one change can do -/

/-- A change at the lines reaches the port at the lines, the bus timeout and the queue of commands, and
nothing else; an edge of SCL within a transaction starts the bus timeout again. -/
theorem State.takeLine_changes (s : State) (x : LineChange) :
    ∃ b timer cs,
      s.takeLine x
          = { s with
              pending := cs ++ s.pending, bus := b, link := { s.link with busTimer := timer } }
        ∧ (∀ high, x = .scl high → b.scl = high ∧ b.sda = s.bus.sda)
        ∧ (∀ released, x = .sda released → b.sda = released ∧ b.scl = s.bus.scl)
        ∧ timer
          = (if s.inReset = none ∧ x = .scl (!s.bus.scl) ∧ s.link.transaction ≠ .none then some 25
            else s.link.busTimer) := by
  obtain ⟨pend, eng, ch, jb, nj, sch, ky, q, lk, bs, ln, tb, lc, ir, fc⟩ := s
  obtain ⟨c, d, st, r, bits⟩ := bs
  obtain ⟨k0, k1, k2, tr, k4, k5, k6⟩ := lk
  cases x with
  | sda v =>
    simp only [State.takeLine, State.sdaChange]
    split
    · exact ⟨_, _, [], rfl, by simp, by simp, by simp⟩
    · split
      · exact ⟨_, _, _, rfl, by simp, by simp [State.withBus], by simp⟩
      · exact ⟨_, _, _, rfl, by simp, by simp [State.withBus, Bus.letGo], by simp⟩
      · exact ⟨_, _, [], rfl, by simp, by simp, by simp⟩
      · exact ⟨_, _, [], rfl, by simp, by simp, by simp⟩
  | scl v =>
    simp only [State.takeLine, State.sclChange]
    have hn : ∀ b : Bool, (b = !b) = False := by decide
    split
    · rename_i h
      have h : c = v := h
      subst h
      exact ⟨_, _, [], rfl, by simp, by simp, by simp [hn]⟩
    · rename_i h
      have hv : v = !c := by cases v <;> cases c <;> simp_all
      subst hv
      split
      · rename_i h
        cases ir with
        | none => cases h
        | some r => exact ⟨_, _, [], rfl, by simp, by simp, by simp⟩
      · rename_i h'
        have : ir = none := by cases ir <;> simp_all
        subst this
        by_cases ht : tr = .none <;> cases c <;>
          simp only [ht, if_true, if_false, Bool.not_true, Bool.not_false, Bool.false_eq_true] <;>
          (first | unfold State.sclRise | unfold State.sclFall) <;> split <;>
          first
          | exact ⟨_, _, _, rfl, by simp [State.withBus, State.withLink],
              by simp, by simp [ht, State.withLink, LinkPort.edge, busTimeoutMs]⟩
          | exact ⟨_, _, [], rfl, by simp [State.withBus, State.withLink],
              by simp, by simp [ht, State.withLink, LinkPort.edge, busTimeoutMs]⟩

/-! ## Runs in which the host hears the lines -/

/-- One run after another. -/
theorem State.Hears.trans {s t u : State} {a b : List Bool} (h : s.Hears a t) (h' : t.Hears b u) :
    s.Hears (a ++ b) u := by
  induction h with
  | done => simpa using h'
  | next hs _ ih => rw [List.append_assoc]; exact .next hs (ih h')

/-- A run of one step. -/
theorem State.Hears.one {s t : State} (h : step s = .next t) :
    s.Hears (if s.sclRises then [t.sdaLevel] else []) t := by
  simpa using State.Hears.next h (.done t)

/-- On an empty queue a step takes the next change. -/
theorem step_line {s : State} {x : LineChange} {rest : List LineChange} (h : s.pending = [])
    (hl : s.lines = x :: rest) : step s = .next (({ s with lines := rest } : State).takeLine x) := by
  simp [step, h, State.idle, hl]

/-- A change that is not a rise of SCL is taken, and nothing is heard. -/
theorem State.Hears.quiet {s t u : State} {x : LineChange} {rest : List LineChange} {bits}
    (h : s.pending = [])
    (hl : s.lines = x :: rest) (hx : x ≠ .scl true) (ht : ({ s with lines := rest } : State).takeLine x = t)
    (hu : t.Hears bits u) : s.Hears bits u := by
  have := State.Hears.next (step_line h hl) (ht ▸ hu)
  have h0 : s.sclRises = false := by simp [State.sclRises, hl, hx]
  simpa [h0] using this

/-- A rise of SCL is taken, and the level of SDA is heard. -/
theorem State.Hears.rise {s t u : State} {rest : List LineChange} {bits}
    (h : s.pending = []) (hl : s.lines = .scl true :: rest) (hc : s.bus.scl = false)
    (ht : ({ s with lines := rest } : State).takeLine (.scl true) = t) (hu : t.Hears bits u) :
    s.Hears (t.sdaLevel :: bits) u := by
  have := State.Hears.next (step_line h hl) (ht ▸ hu)
  have h0 : s.sclRises = true := by simp [State.sclRises, hl, h, hc]
  simpa [h0, ht] using this

/-- The one command that waits is run. -/
theorem State.Hears.command {s t u : State} {c : Instr} {bits}
    (h : s.pending = [c]) (ht : exec c { s with pending := [] } = .next t) (hu : t.Hears bits u) :
    s.Hears bits u := by
  have hs : step s = .next t := by simp [Sys2Proof.Machine.step, h, ht]
  have := State.Hears.next hs hu
  have h0 : s.sclRises = false := by simp [State.sclRises, h]
  simpa [h0] using this

/-- The link port after an edge of SCL (R158). -/
def LinkPort.clocked (l : LinkPort) : LinkPort := if l.transaction = .none then l else l.edge

@[simp] theorem LinkPort.clocked_transaction (l : LinkPort) : l.clocked.transaction = l.transaction := by
  unfold LinkPort.clocked LinkPort.edge; split <;> rfl
@[simp] theorem LinkPort.clocked_clocked (l : LinkPort) : l.clocked.clocked = l.clocked := by
  by_cases h : l.transaction = .none <;> simp [LinkPort.clocked, LinkPort.edge, h]
@[simp] theorem LinkPort.clocked_ack (l : LinkPort) : l.clocked.ack = l.ack := by
  unfold LinkPort.clocked LinkPort.edge; split <;> rfl

/-- Out of reset, what an edge of SCL comes to. -/
theorem sclChange_eq (s : State) (hr : s.inReset = none) (h : Bool) (hs : s.bus.scl = !h) :
    s.sclChange h = if h then (s.withLink s.link.clocked).sclRise
      else (s.withLink s.link.clocked).sclFall := by
  have h1 : s.bus.scl ≠ h := by cases h <;> simp [hs]
  have h2 : (if s.link.transaction = .none then s else s.withLink s.link.edge)
      = s.withLink s.link.clocked := by
    unfold LinkPort.clocked; split <;> rfl
  simp only [State.sclChange, h1, if_false, hr, Option.isSome_none, Bool.false_eq_true, h2]


/-! ## The states in the middle of a byte -/

/-- `s` with its link port, its port at the lines, and what waits replaced. -/
def State.onLines (s : State) (l : LinkPort) (b : Bus) (xs : List LineChange) (cs : List Instr) : State :=
  { s with link := l, bus := b, lines := xs, pending := cs }

@[simp] theorem onLines_clocked {s : State} {l : LinkPort} (hl : l.clocked = l) (b : Bus)
    (xs : List LineChange) :
    (s.onLines l b xs []).withLink (s.onLines l b xs []).link.clocked = s.onLines l b xs [] := by
  show s.onLines l.clocked _ _ _ = _
  rw [hl]
  rfl

/-- What the eight data bits of a byte need: the port keeps its role, releases SDA at the places that `rel`
names, and spells `cmd` of the eight bits at the eighth. -/
structure Carries (s : State) (l : LinkPort) (r : BusRole) (rel : Nat → Bool)
    (cmd : List Bool → List Instr) : Prop where
  reset : s.inReset = none
  clocked : l.clocked = l
  active : r ≠ .off
  role : ∀ b xs cs, b.role = r → (s.onLines l b xs cs).busRole = r
  drives : ∀ b xs cs, b.role = r → b.place < 8 → b.inAck = false →
    (s.onLines l b xs cs).drivesSda = !rel b.place
  spelled : ∀ b xs cs bits, b.role = r → bits.length = 8 → (s.onLines l b xs cs).spelled r bits = cmd bits

/-- What a rise of SCL comes to where the port takes part. -/
theorem sclRise_eq {s : State} {r : BusRole} (h : s.busRole = r) (hr : r ≠ .off) :
    s.sclRise = (s.withBus { s.bus with scl := true, role := r, bits := s.bus.bits ++ [s.sdaLevel] }).spell
      (s.spelled r (s.bus.bits ++ [s.sdaLevel])) := by
  subst h; unfold State.sclRise
  split
  · exact absurd ‹_› hr
  · rfl

theorem spelled_short {s : State} {r : BusRole} {bits : List Bool} (h : bits.length ≠ 8) :
    s.spelled r bits = [] := by simp [State.spelled, h]

/-- One data bit, from the low level of SCL: SDA is high where the host and the port release it. -/
theorem Carries.bit {s : State} {l : LinkPort} {r : BusRole} {rel : Nat → Bool}
    {cmd : List Bool → List Instr} (c : Carries s l r rel cmd) {h st b : Bool} {bs : List Bool}
    (hb : bs.length < 8) (rest : List LineChange) {u : State} {bits : List Bool}
    (hu : (s.onLines l ⟨true, b, st, r, bs ++ [b && rel bs.length]⟩ rest
        (if bs.length = 7 then cmd (bs ++ [b && rel bs.length]) else [])).Hears bits u) :
    (s.onLines l ⟨false, h, st, r, bs⟩ (.sda b :: .scl true :: rest) []).Hears
      ((b && rel bs.length) :: bits) u := by
  refine State.Hears.quiet rfl rfl (by simp)
    (t := s.onLines l ⟨false, b, st, r, bs⟩ (.scl true :: rest) []) ?_ ?_
  · simp [State.takeLine, State.sdaChange, State.withBus, State.onLines]
  · have hlow : ∀ xs cs, (s.onLines l ⟨false, b, st, r, bs⟩ xs cs).sdaLevel = (b && rel bs.length) := by
      intro xs cs
      have := c.drives ⟨false, b, st, r, bs⟩ xs cs rfl (by simpa [Bus.place] using hb)
        (by simp [Bus.inAck]; omega)
      simp only [State.sdaLevel, this]; simp [State.onLines, Bus.place]
    have hhigh : ∀ xs cs, (s.onLines l ⟨true, b, st, r, bs ++ [b && rel bs.length]⟩ xs cs).sdaLevel
        = (b && rel bs.length) := by
      intro xs cs
      have := c.drives ⟨true, b, st, r, bs ++ [b && rel bs.length]⟩ xs cs rfl
        (by simpa [Bus.place] using hb) (by simp [Bus.inAck]; omega)
      simp only [State.sdaLevel, this]; simp [State.onLines, Bus.place]
    have key := State.Hears.rise (s := s.onLines l ⟨false, b, st, r, bs⟩ (.scl true :: rest) [])
      (u := u) (bits := bits) rfl rfl rfl
      (t := s.onLines l ⟨true, b, st, r, bs ++ [b && rel bs.length]⟩ rest
        (if bs.length = 7 then cmd (bs ++ [b && rel bs.length]) else [])) ?_ hu
    · rwa [hhigh] at key
    · refine (sclChange_eq (s.onLines l ⟨false, b, st, r, bs⟩ rest []) c.reset true rfl).trans ?_
      rw [if_pos rfl]
      have e := onLines_clocked (s := s) c.clocked ⟨false, b, st, r, bs⟩ rest
      rw [e, sclRise_eq (c.role ⟨false, b, st, r, bs⟩ rest [] rfl) c.active, hlow]
      split
      · rename_i h7
        rw [c.spelled _ _ _ _ rfl (by simp [State.onLines, h7])]
        simp [State.onLines, State.withBus, State.spell]
      · rename_i h7
        rw [spelled_short (by simp [State.onLines]; omega)]
        simp [State.onLines, State.withBus, State.spell]

/-- The fall of SCL within a byte. -/
theorem Carries.fall {s : State} {l : LinkPort} (hr : s.inReset = none) {r : BusRole}
    {h st : Bool} {bs : List Bool}
    (hb : bs.length ≠ 9) (rest : List LineChange) {u : State} {bits : List Bool}
    (hu : (s.onLines l.clocked ⟨false, h, st, r, bs⟩ rest []).Hears bits u) :
    (s.onLines l ⟨true, h, st, r, bs⟩ (.scl false :: rest) []).Hears bits u := by
  refine State.Hears.quiet rfl rfl (by simp) ?_ hu
  refine (sclChange_eq (s.onLines l ⟨true, h, st, r, bs⟩ rest []) hr false rfl).trans ?_
  simp [State.sclFall, State.onLines, State.withLink, State.withBus, hb]

/-- The levels of SDA for the bits at places `n`, `n + 1`, … -/
def levels (rel : Nat → Bool) : Nat → List Bool → List Bool
  | _, [] => []
  | n, b :: bs => (b && rel n) :: levels rel (n + 1) bs

/-- The data bits that are left of a byte. -/
theorem Carries.bits {s : State} {l : LinkPort} {r : BusRole} {rel : Nat → Bool}
    {cmd : List Bool → List Instr} (c : Carries s l r rel cmd) {st : Bool} (rest : List LineChange)
    {u : State} {heard : List Bool} (more : List Bool) :
    ∀ (h : Bool) (bs : List Bool), bs.length < 8 → bs.length + more.length = 8 →
    (∀ h', (s.onLines l ⟨true, h', st, r, bs ++ levels rel bs.length more⟩ rest
      (cmd (bs ++ levels rel bs.length more))).Hears heard u) →
    (s.onLines l ⟨true, h, st, r, bs⟩ (more.flatMap clockBit ++ rest) []).Hears
      (levels rel bs.length more ++ heard) u := by
  induction more with
  | nil => intro h bs h1 h2; simp at h2; omega
  | cons b more ih =>
    intro h bs h1 h2 hu
    simp only [List.flatMap_cons, clockBit, List.cons_append, List.nil_append, levels]
    refine Carries.fall c.reset (by omega) _ ?_
    rw [c.clocked]
    refine c.bit h1 _ ?_
    cases more with
    | nil =>
      have h7 : bs.length = 7 := by simpa using h2
      rw [if_pos h7]
      simpa [levels] using hu b
    | cons b' more =>
      rw [if_neg (by simp at h2; omega)]
      have := ih b (bs ++ [b && rel bs.length]) (by simp at h2 ⊢; omega) (by simp at h2 ⊢; omega)
        (by simpa [levels] using hu)
      simpa using this

/-- From the fall of SCL that begins it, a byte is clocked. -/
theorem Carries.byte {s : State} {l : LinkPort} {r : BusRole} {rel : Nat → Bool}
    {cmd : List Bool → List Instr} (c : Carries s l r rel cmd) {st h : Bool} (rest : List LineChange)
    {u : State} {heard : List Bool} (b : Byte)
    (hu : ∀ h', (s.onLines l ⟨true, h', st, r, levels rel 0 (bitsOfByte b)⟩ rest
      (cmd (levels rel 0 (bitsOfByte b)))).Hears heard u) :
    (s.onLines l ⟨false, h, st, r, []⟩ (((bitsOfByte b).flatMap clockBit ++ rest).tail) []).Hears
      (levels rel 0 (bitsOfByte b) ++ heard) u := by
  obtain ⟨b0, bs, e⟩ : ∃ b0 bs, bitsOfByte b = b0 :: bs := ⟨_, _, rfl⟩
  have hlen : bs.length = 7 := by
    have : (bitsOfByte b).length = 8 := by simp [bitsOfByte]
    rw [e] at this; simpa using this
  rw [e] at hu ⊢
  simp only [List.flatMap_cons, clockBit, List.cons_append, List.nil_append, levels, List.tail_cons]
  refine c.bit (bs := []) (by simp) _ ?_
  simpa using c.bits rest bs b0 [b0 && rel 0] (by simp) (by simp [hlen]) (by simpa [levels] using hu)


/-- The acknowledge bit: SDA as the host leaves it, low where the port acknowledges. -/
theorem Hears_ack {s : State} {l : LinkPort} (hr : s.inReset = none) (hl : l.clocked = l)
    {r : BusRole} (ha : r ≠ .off) {d : Bool}
    (role : ∀ b xs cs, b.role = r → (s.onLines l b xs cs).busRole = r)
    (drives : ∀ b xs cs, b.role = r → b.inAck = true → (s.onLines l b xs cs).drivesSda = d)
    {h st b : Bool} {bs : List Bool} (hb : bs.length = 8) (rest : List LineChange)
    {u : State} {heard : List Bool}
    (hu : (s.onLines l ⟨true, b, st, r, bs ++ [b && !d]⟩ rest []).Hears heard u) :
    (s.onLines l ⟨true, h, st, r, bs⟩ (clockBit b ++ rest) []).Hears ((b && !d) :: heard) u := by
  refine Carries.fall hr (by omega) _ ?_
  rw [hl]
  refine State.Hears.quiet rfl rfl (by simp)
    (t := s.onLines l ⟨false, b, st, r, bs⟩ (.scl true :: rest) []) ?_ ?_
  · simp [State.takeLine, State.sdaChange, State.withBus, State.onLines]
  · have hlow : ∀ xs cs, (s.onLines l ⟨false, b, st, r, bs⟩ xs cs).sdaLevel = (b && !d) := by
      intro xs cs
      have := drives ⟨false, b, st, r, bs⟩ xs cs rfl (by simp [Bus.inAck, hb])
      simp only [State.sdaLevel, this]; simp [State.onLines]
    have hhigh : ∀ xs cs, (s.onLines l ⟨true, b, st, r, bs ++ [b && !d]⟩ xs cs).sdaLevel
        = (b && !d) := by
      intro xs cs
      have := drives ⟨true, b, st, r, bs ++ [b && !d]⟩ xs cs rfl (by simp [Bus.inAck, hb])
      simp only [State.sdaLevel, this]; simp [State.onLines]
    have key := State.Hears.rise (s := s.onLines l ⟨false, b, st, r, bs⟩ (.scl true :: rest) [])
      (u := u) (bits := heard) rfl rfl rfl
      (t := s.onLines l ⟨true, b, st, r, bs ++ [b && !d]⟩ rest []) ?_ hu
    · rwa [hhigh] at key
    · refine (sclChange_eq (s.onLines l ⟨false, b, st, r, bs⟩ rest []) hr true rfl).trans ?_
      rw [if_pos rfl]
      have e := onLines_clocked (s := s) hl ⟨false, b, st, r, bs⟩ rest
      rw [e, sclRise_eq (role ⟨false, b, st, r, bs⟩ rest [] rfl) ha, hlow,
        spelled_short (by simp [State.onLines, hb])]
      simp [State.onLines, State.withBus, State.spell]

/-- The fall of SCL after the acknowledge bit. -/
theorem Hears_next {s : State} {l : LinkPort} (hr : s.inReset = none) (hl : l.clocked = l)
    {r r' : BusRole} {h st : Bool} {bs : List Bool} (hb : bs.length = 9)
    (hn : ∀ b xs cs, b.role = r → (s.onLines l b xs cs).nextRole = r') (rest : List LineChange)
    {u : State} {heard : List Bool}
    (hu : (s.onLines l ⟨false, h, st, r', []⟩ rest
      (if r' = .sending 3 then [.flagsByteStart] else [])).Hears heard u) :
    (s.onLines l ⟨true, h, st, r, bs⟩ (.scl false :: rest) []).Hears heard u := by
  refine State.Hears.quiet rfl rfl (by simp) ?_ hu
  refine (sclChange_eq (s.onLines l ⟨true, h, st, r, bs⟩ rest []) hr false rfl).trans ?_
  have e := onLines_clocked (s := s) hl ⟨true, h, st, r, bs⟩ rest
  rw [e]
  have hn' := hn ⟨true, h, st, r, bs⟩ rest [] rfl
  simp only [Bool.false_eq_true, if_false, State.sclFall]
  rw [if_pos (by simpa [State.onLines] using hb), hn']
  simp [State.onLines, State.withBus, State.spell]

theorem levels_true (n : Nat) (bs : List Bool) : levels (fun _ => true) n bs = bs := by
  induction bs generalizing n with
  | nil => rfl
  | cons b bs ih => simp [levels, ih]

theorem levels_filler (b : Byte) : levels b.getMsbD 0 (bitsOfByte 0xFF) = bitsOfByte b := by
  rfl

/-- Eight bits spell the byte they are the bits of. -/
theorem byteOfBits_bitsOfByte : ∀ b : Byte, byteOfBits (bitsOfByte b) = b := by decide +kernel

/-- An address byte spells the address and the direction. -/
theorem addressCommand_addressByte : ∀ (a : BitVec 7) (read : Bool),
    addressCommand (addressByte a read) = if read then .readAddress a else .writeAddress a := by
  decide +kernel

/-! ## The three roles -/

theorem carries_address {s : State} {l : LinkPort} (hr : s.inReset = none)
    (ht : l.transaction = .none) :
    Carries s l .address (fun _ => true) (fun bits => [addressCommand (byteOfBits bits)]) where
  reset := hr
  clocked := by simp [LinkPort.clocked, ht]
  active := by simp
  role b xs cs hb := by simp [State.busRole, State.onLines, hb]
  drives b xs cs hb _ _ := by simp [State.drivesSda, State.busRole, State.onLines, hb, ht]
  spelled b xs cs bits hb h8 := by simp [State.spelled, h8]

theorem carries_receiving {s : State} {l : LinkPort} (hr : s.inReset = none) {w : WriteRecord}
    (ht : l.transaction = .write w) (hl : l.clocked = l) :
    Carries s l .receiving (fun _ => true) (fun bits => [.writeByte (byteOfBits bits)]) where
  reset := hr
  clocked := hl
  active := by simp
  role b xs cs hb := by simp [State.busRole, State.onLines, hb, ht]
  drives b xs cs hb _ ha := by
    have ha' : (s.onLines l b xs cs).bus.inAck = false := ha
    simp [State.drivesSda, State.busRole, hb, ht, ha', State.onLines, ha]
  spelled b xs cs bits hb h8 := by simp [State.spelled, h8]

theorem carries_sending {s : State} {l : LinkPort} (hr : s.inReset = none) {tr : Transmission} {i : Nat}
    (ht : l.transaction = .read tr) (hl : l.clocked = l) :
    Carries s l (.sending i) (tr.sentByte i).getMsbD
      (fun _ => if tr.isCrc i then [.headRetire] else []) where
  reset := hr
  clocked := hl
  active := by simp
  role b xs cs hb := by simp [State.busRole, State.onLines, hb, ht]
  drives b xs cs hb hp _ := by
    simp [State.drivesSda, State.busRole, State.onLines, hb, ht, hp]
  spelled b xs cs bits hb h8 := by simp [State.spelled, h8, State.onLines, ht]


/-! ## Whole bytes and conditions -/

theorem clockByte_split (b : Byte) (rest : List LineChange) :
    clockByte b ++ rest
      = .scl false :: ((bitsOfByte b).flatMap clockBit ++ (clockBit true ++ rest)).tail := by
  simp [clockByte, bitsOfByte, List.range, List.range.loop, clockBit]

/-- A byte of a write: the host hears its own bits, and the acknowledge. -/
theorem recv_byte {s : State} {l l' : LinkPort} {w w' : WriteRecord} {r : BusRole} {b : Byte}
    (hr : s.inReset = none) (hl : l.clocked = l) (ht : l.transaction = .write w)
    (ht' : l'.transaction = .write w') (hl' : l'.clocked = l')
    (hrole : r = .address ∨ r = .receiving)
    (hw : ∀ B X, exec (.writeByte b) (s.onLines l B X []) = .next (s.onLines l' B X []))
    {h st : Bool} {bs : List Bool} (hb : bs.length = 9) (rest : List LineChange) {u : State}
    {heard : List Bool}
    (hu : ∀ bs', bs'.length = 9 →
      (s.onLines l' ⟨true, true, st, .receiving, bs'⟩ rest []).Hears heard u) :
    (s.onLines l ⟨true, h, st, r, bs⟩ (clockByte b ++ rest) []).Hears
      (bitsOfByte b ++ (!l'.ack) :: heard) u := by
  rw [clockByte_split]
  refine Hears_next hr hl hb (r' := .receiving) ?_ _ ?_
  · rintro B xs cs rfl
    rcases hrole with h | h <;>
      simp [State.nextRole, State.busRole, State.onLines, h, ht]
  · simp only [reduceCtorEq, if_false]
    have := (carries_receiving hr ht hl).byte (st := st) (h := h) (clockBit true ++ rest) (u := u)
      (heard := (!l'.ack) :: heard) b ?_
    · simpa only [levels_true] using this
    · intro h'
      simp only [levels_true, byteOfBits_bitsOfByte]
      refine State.Hears.command rfl (hw _ _) ?_
      have := Hears_ack (s := s) (l := l') hr hl' (r := .receiving) (by simp) (d := l'.ack) ?_ ?_
        (h := h') (st := st) (b := true) (bs := bitsOfByte b) (by simp [bitsOfByte]) rest (u := u) (heard := heard) ?_
      · exact this
      · intro B xs cs hB
        simp [State.busRole, State.onLines, hB, ht']
      · intro B xs cs hB ha
        have ha' : (s.onLines l' B xs cs).bus.inAck = true := ha
        simp [State.drivesSda, State.busRole, State.onLines, hB, ht', ha]
      · simpa using hu _ (by simp [bitsOfByte])

/-- The address byte after a START: the host hears its own bits, and the acknowledge. -/
theorem address_byte {s s' : State} {l l' : LinkPort} {a : BitVec 7} {read : Bool} {d : Bool}
    (hr : s.inReset = none) (hr' : s'.inReset = none) (ht : l.transaction = .none) (hl' : l'.clocked = l')
    (hd : d = (decide (l'.transaction ≠ .none) && l'.ack))
    (hw : ∀ B X, exec (if read then .readAddress a else .writeAddress a) (s.onLines l B X [])
      = .next (s'.onLines l' B X []))
    {h st : Bool} {bs : List Bool} (hb : bs.length = 0) (rest : List LineChange) {u : State}
    {heard : List Bool}
    (hu : (s'.onLines l' ⟨true, true, st, .address, bitsOfByte (addressByte a read) ++ [!d]⟩ rest
      []).Hears heard u) :
    (s.onLines l ⟨true, h, st, .address, bs⟩ (clockByte (addressByte a read) ++ rest) []).Hears
      (bitsOfByte (addressByte a read) ++ (!d) :: heard) u := by
  rw [clockByte_split]
  have hc : l.clocked = l := by simp [LinkPort.clocked, ht]
  obtain rfl : bs = [] := by simpa using hb
  refine Carries.fall hr (by simp) _ ?_
  rw [hc]
  have := (carries_address hr ht).byte (st := st) (h := h) (clockBit true ++ rest) (u := u)
      (heard := (!d) :: heard) (addressByte a read) ?_
  · simpa only [levels_true] using this
  · intro h'
    simp only [levels_true, byteOfBits_bitsOfByte, addressCommand_addressByte]
    refine State.Hears.command rfl (hw _ _) ?_
    have := Hears_ack (s := s') (l := l') hr' hl' (r := .address) (by simp) (d := d) ?_ ?_
      (h := h') (st := st) (b := true) (bs := bitsOfByte (addressByte a read)) (by simp [bitsOfByte]) rest
      (u := u) (heard := heard) ?_
    · exact this
    · intro B xs cs hB
      simp [State.busRole, State.onLines, hB]
    · intro B xs cs hB ha
      have ha' : (s.onLines l' B xs cs).bus.inAck = true := ha
      subst hd
      cases htr : l'.transaction <;>
        simp [State.drivesSda, State.busRole, State.onLines, hB, htr, ha]
    · simpa only [Bool.true_and] using hu

/-- A START on idle lines. -/
theorem start_lines {s : State} (hp : s.pending = []) (hr : s.inReset = none)
    (ht : s.link.transaction = .none) (hc : s.bus.scl = true) (hs : s.bus.sda = true)
    (rest : List LineChange) {u : State} {heard : List Bool}
    (hu : (s.onLines s.link ⟨true, false, true, .address, []⟩ rest []).Hears heard u) :
    ({ s with lines := startLines ++ rest } : State).Hears heard u := by
  have hd : ∀ b xs cs, (s.onLines s.link b xs cs).drivesSda = false := by
    intro b xs cs
    obtain ⟨c, d, st, r, bs⟩ := b
    cases r <;> simp [State.drivesSda, State.busRole, State.onLines, ht]
  have e1 : ({ s with lines := rest } : State) = s.onLines s.link s.bus rest [] := by
    cases s; cases hp; rfl
  refine State.Hears.quiet (s := { s with lines := startLines ++ rest }) hp rfl (by simp)
    (t := s.onLines s.link ⟨true, false, true, .address, []⟩ rest
      (if s.bus.started then [.transactionEnd .repeatedStart] else [])) ?_ ?_
  · show ({ s with lines := rest } : State).takeLine _ = _
    rw [e1]
    have h1 : (s.onLines s.link s.bus rest []).sdaLevel = true := by
      simp only [State.sdaLevel, hd]; simp [State.onLines, hs]
    have h2 : ((s.onLines s.link s.bus rest []).withBus
        { (s.onLines s.link s.bus rest []).bus with sda := false }).sdaLevel = false := by
      simp [State.sdaLevel, State.withBus]
    simp only [State.takeLine, State.sdaChange]
    rw [h1, h2]
    simp [State.onLines, hr, hc, State.startCondition, State.withBus, State.spell]
  · split
    · refine State.Hears.command rfl ?_ hu
      have : ∀ t : State, t.link.transaction = .none →
          exec (.transactionEnd .repeatedStart) t = .next t := by
        intro t h; simp [exec, execTransactionEnd, State.transactionEnd, h]
      exact this (s.onLines s.link ⟨true, false, true, .address, []⟩ rest []) ht
    · exact hu

/-- A STOP or a repeated START after a byte, where the port releases SDA. -/
theorem end_lines {s s' : State} {l : LinkPort} {kind : EndKind} {r r' : BusRole}
    (hr : s.inReset = none) (hl : l.clocked = l)
    (hn : ∀ b xs cs, b.role = r → (s.onLines l b xs cs).nextRole = r') (h3 : r' ≠ .sending 3)
    (hdr : ∀ b xs cs, b.role = r' → b.bits.length < 2 → (s.onLines l b xs cs).drivesSda = false)
    (hrole : ∀ b xs cs, b.role = r' → (s.onLines l b xs cs).busRole = r') (ha : r' ≠ .off)
    (hx : ∀ B X, exec (.transactionEnd kind) (s.onLines l B X []) = .next (s'.onLines s'.link B X []))
    {h st : Bool} {bs : List Bool} (hst : st = true) (hb : bs.length = 9) :
    (s.onLines l ⟨true, h, st, r, bs⟩ (endLines kind) []).Hears
      [kind == .repeatedStart] (s'.onLines s'.link (busAfter kind) [] []) := by
  subst hst
  have low : ∀ (v : Bool) (rest), (s.onLines l ⟨false, v, true, r', []⟩ rest []).sdaLevel = v := by
    intro v rest
    simp only [State.sdaLevel, hdr ⟨false, v, true, r', []⟩ rest [] rfl (by simp)]; simp [State.onLines]
  have high : ∀ (v w : Bool) (rest), (s.onLines l ⟨true, v, true, r', [w]⟩ rest []).sdaLevel = v := by
    intro v w rest
    simp only [State.sdaLevel, hdr ⟨true, v, true, r', [w]⟩ rest [] rfl (by simp)]; simp [State.onLines]
  have main : ∀ v rest {u : State} {heard},
      (s.onLines l ⟨true, v, true, r', [v]⟩ rest []).Hears heard u →
      (s.onLines l ⟨true, h, true, r, bs⟩ (clockBit v ++ rest) []).Hears (v :: heard) u := by
    intro v rest u heard hu
    refine Hears_next hr hl hb hn _ ?_
    rw [if_neg h3]
    refine State.Hears.quiet rfl rfl (by simp)
      (t := s.onLines l ⟨false, v, true, r', []⟩ (.scl true :: rest) []) ?_ ?_
    · simp [State.takeLine, State.sdaChange, State.withBus, State.onLines]
    · have key := State.Hears.rise (s := s.onLines l ⟨false, v, true, r', []⟩ (.scl true :: rest) [])
        (u := u) (bits := heard) rfl rfl rfl
        (t := s.onLines l ⟨true, v, true, r', [v]⟩ rest []) ?_ hu
      · rwa [high] at key
      · refine (sclChange_eq (s.onLines l ⟨false, v, true, r', []⟩ rest []) hr true rfl).trans ?_
        rw [if_pos rfl]
        have e := onLines_clocked (s := s) hl ⟨false, v, true, r', []⟩ rest
        rw [e, sclRise_eq (hrole ⟨false, v, true, r', []⟩ rest [] rfl) ha, low,
          spelled_short (by simp [State.onLines])]
        simp [State.onLines, State.withBus, State.spell]
  cases kind with
  | stop =>
    refine main false [.sda true] ?_
    refine State.Hears.quiet rfl rfl (by simp)
      (t := s.onLines l (busAfter .stop) [] [.transactionEnd .stop]) ?_
      (State.Hears.command rfl (hx _ _) (.done _))
    have h1 := high false false []
    have h2 := high true false []
    show State.takeLine (s.onLines l ⟨true, false, true, r', [false]⟩ [] []) _ = _
    simp only [State.takeLine, State.sdaChange, h1]
    have : ((s.onLines l ⟨true, false, true, r', [false]⟩ [] []).withBus
      { (s.onLines l ⟨true, false, true, r', [false]⟩ [] []).bus with sda := true }).sdaLevel = true := h2
    rw [this]
    simp [State.onLines, hr, State.stopCondition, State.withBus, State.spell, Bus.letGo, busAfter]
  | repeatedStart =>
    refine main true [.sda false] ?_
    refine State.Hears.quiet rfl rfl (by simp)
      (t := s.onLines l (busAfter .repeatedStart) [] [.transactionEnd .repeatedStart]) ?_
      (State.Hears.command rfl (hx _ _) (.done _))
    have h1 := high true true []
    have h2 := high false true []
    show State.takeLine (s.onLines l ⟨true, true, true, r', [true]⟩ [] []) _ = _
    simp only [State.takeLine, State.sdaChange, h1]
    have : ((s.onLines l ⟨true, true, true, r', [true]⟩ [] []).withBus
      { (s.onLines l ⟨true, true, true, r', [true]⟩ [] []).bus with sda := false }).sdaLevel = false := h2
    rw [this]
    simp [State.onLines, hr, State.startCondition, State.withBus, State.spell, busAfter]


/-- One byte of a read: the host hears the byte that is sent, and its own acknowledge bit. The fall of SCL
before byte 3 fixes FLAGS, and the eighth bit of the CRC byte retires the head. -/
theorem send_byte {s s1 s2 : State} {l l1 l2 : LinkPort} {tr tr2 : Transmission} {i : Nat} {r : BusRole}
    (hr : s.inReset = none) (hl : l.clocked = l) (hr1 : s1.inReset = none) (hr2 : s2.inReset = none)
    (hn : ∀ b xs cs, b.role = r → (s.onLines l b xs cs).nextRole = .sending i)
    (hf : if i = 3 then ∀ B X, exec .flagsByteStart (s.onLines l B X []) = .next (s1.onLines l1 B X [])
      else s1 = s ∧ l1 = l)
    (ht1 : l1.transaction = .read tr) (hl1 : l1.clocked = l1)
    (hcr : if tr.isCrc i then ∀ B X, exec .headRetire (s1.onLines l1 B X []) = .next (s2.onLines l2 B X [])
      else s2 = s1 ∧ l2 = l1)
    (ht2 : l2.transaction = .read tr2) (hl2 : l2.clocked = l2)
    {h st : Bool} {bs : List Bool} (hb : bs.length = 9) (rest : List LineChange) {u : State}
    {heard : List Bool}
    (hu : (s2.onLines l2 ⟨true, true, st, .sending i, bitsOfByte (tr.sentByte i) ++ [true]⟩ rest
      []).Hears heard u) :
    (s.onLines l ⟨true, h, st, r, bs⟩ (clockByte 0xFF ++ rest) []).Hears
      (bitsOfByte (tr.sentByte i) ++ true :: heard) u := by
  rw [clockByte_split]
  refine Hears_next hr hl hb hn _ ?_
  have body : (s1.onLines l1 ⟨false, h, st, .sending i, []⟩
      ((bitsOfByte 0xFF).flatMap clockBit ++ (clockBit true ++ rest)).tail []).Hears
      (bitsOfByte (tr.sentByte i) ++ true :: heard) u := by
    have := (carries_sending (i := i) hr1 ht1 hl1).byte (st := st) (h := h) (clockBit true ++ rest) (u := u)
      (heard := true :: heard) 0xFF ?_
    · simpa only [levels_filler] using this
    intro h'
    simp only [levels_filler]
    have ack : (s2.onLines l2 ⟨true, h', st, .sending i, bitsOfByte (tr.sentByte i)⟩ (clockBit true ++ rest) []).Hears
        (true :: heard) u := by
      have := Hears_ack (s := s2) (l := l2) hr2 hl2 (r := .sending i) (by simp) (d := false) ?_ ?_
        (h := h') (st := st) (b := true) (bs := bitsOfByte (tr.sentByte i)) (by simp [bitsOfByte]) rest (u := u) (heard := heard) ?_
      · exact this
      · intro B xs cs hB
        simp [State.busRole, State.onLines, hB, ht2]
      · intro B xs cs hB ha
        have : ¬ B.place < 8 := by
          unfold Bus.inAck at ha; unfold Bus.place
          split <;> simp_all
        simp [State.drivesSda, State.busRole, State.onLines, hB, ht2, this]
      · exact hu
    split at hcr
    · rename_i hi
      rw [if_pos hi]
      exact State.Hears.command rfl (hcr _ _) ack
    · rename_i hi
      obtain ⟨rfl, rfl⟩ := hcr
      rw [if_neg hi]; exact ack
  split at hf
  · rename_i hi
    rw [if_pos (by rw [hi])]
    exact State.Hears.command rfl (hf _ _) body
  · rename_i hi
    obtain ⟨rfl, rfl⟩ := hf
    rw [if_neg (by simpa using hi)]; exact body

/-- A port that takes no part on the bus leaves SDA to the host, whatever bits are clocked. -/
theorem off_low (s : State) (hr : s.inReset = none) (hl : s.link.clocked = s.link) (st : Bool) :
    ∀ (xs : List Bool) (x h : Bool), ∃ B,
    (s.onLines s.link ⟨false, h, st, .off, []⟩ (((x :: xs).flatMap clockBit).tail) []).Hears (x :: xs)
      (s.onLines s.link B [] []) := by
  have low : ∀ (b : Bus) (rest), b.role = .off → (s.onLines s.link b rest []).sdaLevel = b.sda := by
    intro b rest hb
    simp [State.sdaLevel, State.drivesSda, State.busRole, State.onLines, hb]
  have el : ∀ B X, (s.onLines s.link B X []).withLink (s.onLines s.link B X []).link.clocked = s.onLines s.link B X [] := by
    intro B X
    show s.onLines s.link.clocked _ _ _ = _
    rw [hl]; rfl
  have one : ∀ x h rest {u heard}, (s.onLines s.link ⟨true, x, st, .off, []⟩ rest []).Hears heard u →
      (s.onLines s.link ⟨false, h, st, .off, []⟩ (.sda x :: .scl true :: rest) []).Hears (x :: heard) u := by
    intro x h rest u heard hu
    refine State.Hears.quiet rfl rfl (by simp)
      (t := s.onLines s.link ⟨false, x, st, .off, []⟩ (.scl true :: rest) []) ?_ ?_
    · simp [State.takeLine, State.sdaChange, State.withBus, State.onLines]
    have key := State.Hears.rise (s := s.onLines s.link ⟨false, x, st, .off, []⟩ (.scl true :: rest) [])
        rfl rfl rfl
        (t := s.onLines s.link ⟨true, x, st, .off, []⟩ rest []) ?_ hu
    · rw [low _ _ rfl] at key; exact key
    · refine (sclChange_eq (s.onLines s.link ⟨false, x, st, .off, []⟩ rest []) hr true rfl).trans ?_
      rw [el]; rfl
  intro xs
  induction xs with
  | nil => intro x h; exact ⟨_, one x h [] (.done _)⟩
  | cons y xs ih =>
    intro x h
    obtain ⟨B, hB⟩ := ih y x
    refine ⟨B, one x h _ ?_⟩
    refine State.Hears.quiet rfl rfl (by simp) ?_ hB
    refine (sclChange_eq (s.onLines s.link ⟨true, x, st, .off, []⟩ _ []) hr false rfl).trans ?_
    rw [el]; rfl


end Sys2Proof.Machine
end

