-- ==== Sys2Proof/Laws/Cycles.lean ====
section
/-! SUPPORT. What the scheduler's shared operations do, once for each, in the terms of the statements
(Sys2Proof/Safety.lean): the offer of a list, the start of a cycle, the quiet judgement, the end of a
cycle, and the changes of mode that start or owe one. -/

namespace Sys2Proof.Machine

/-! ## The offer of a list -/

theorem State.judgeItem_congr {s t : State} (h1 : t.channels = s.channels) (h2 : t.jobs = s.jobs)
    (h3 : t.table = s.table) (item : WorkItem) : t.judgeItem item = s.judgeItem item := by
  have hc : t.chan = s.chan := funext fun c => by simp only [State.chan, h1]
  have hj : t.job = s.job := funext fun c => by simp only [State.job, h2]
  have he : t.entryOfTag = s.entryOfTag := funext fun tag => by simp only [State.entryOfTag, h3]
  cases item <;> simp only [State.judgeItem, hc, hj, he]

/-- What is left of a list once the items that are skipped now have been offered. -/
def State.unskipped (s : State) (l : List WorkItem) : List WorkItem :=
  l.dropWhile fun item => (s.judgeItem item).isNone

/-- An engine that was IDLE, once a list has been offered to it. -/
def State.afterOffers (s : State) (l : List WorkItem) : Engine :=
  match (s.unskipped l).head?.bind s.judgeItem with
  | some r => .settle r 40
  | none => .idle

/-- Every item of a list is offered until one is dispatched (R89). -/
theorem State.offerList_eq (s : State) (e : EngineId) (l : List WorkItem) (h : s.engine e = .idle) :
    s.offerList e l
      = { s with
          engines := s.engines.set e (s.afterOffers l)
          sched :=
            { s.sched with
              cycle := s.sched.cycle.map fun cy =>
                { cy with lists := cy.lists.set e (s.unskipped l).tail } } } := by
  induction l with
  | nil =>
    have : s.engines.set e .idle = s.engines := by
      rw [← h]
      cases e <;> rfl
    simp [State.offerList, State.afterOffers, State.unskipped, this, State.setList, State.setCycle,
      State.withSched]
  | cons item rest ih =>
    unfold State.offerList
    cases hj : s.judgeItem item with
    | none => simpa [State.afterOffers, State.unskipped, hj] using ih
    | some r =>
      simp [State.afterOffers, State.unskipped, hj, State.setList, State.setCycle, State.withSched,
        State.dispatch, State.setEngine, settleTicks]

/-- An item is dispatched unless every one is skipped. -/
theorem State.afterOffers_idle_iff (s : State) (l : List WorkItem) :
    s.afterOffers l = .idle ↔ ∀ item ∈ l, s.judgeItem item = none := by
  induction l with
  | nil => simp [State.afterOffers, State.unskipped]
  | cons item rest ih =>
    cases hj : s.judgeItem item with
    | none =>
      have : s.afterOffers (item :: rest) = s.afterOffers rest := by
        simp [State.afterOffers, State.unskipped, hj]
      simp [this, ih, hj]
    | some r => simp [State.afterOffers, State.unskipped, hj]

/-- Nothing is left of a list whose every item is skipped. -/
theorem State.unskipped_eq_nil {s : State} {l : List WorkItem}
    (h : ∀ item ∈ l, s.judgeItem item = none) : s.unskipped l = [] := by
  simp only [State.unskipped, List.dropWhile_eq_nil_iff]
  intro item hi
  simp [h item hi]

/-! ## The start of a cycle -/

/-- A state with the cycle in flight, the period timer and the engines as given. -/
def State.inCycle (s : State) (k : CycleKind) (engines : PerEngine Engine)
    (lists : PerEngine (List WorkItem)) : State :=
  { s with
    engines := engines
    sched :=
      { s.sched with
        cycle := some { kind := k, lists := lists, late := false, startOwed := false }
        periodTimer := s.sched.periodAtStart k } }

theorem State.offer_inCycle (s : State) (k : CycleKind) (engines : PerEngine Engine)
    (lists : PerEngine (List WorkItem)) (e : EngineId) (h : engines.get e = .idle) :
    (s.inCycle k engines lists).offer e
      = s.inCycle k (engines.set e (s.afterOffers (lists.get e)))
          (lists.set e (s.unskipped (lists.get e)).tail) := by
  have hj : (s.inCycle k engines lists).judgeItem = s.judgeItem :=
    funext (State.judgeItem_congr rfl rfl rfl)
  have he : (s.inCycle k engines lists).engine e = .idle := h
  have : (s.inCycle k engines lists).offer e
      = (s.inCycle k engines lists).offerList e (lists.get e) := by
    unfold State.offer
    simp only [State.inCycle] at he ⊢
    simp [he]
  rw [this, State.offerList_eq _ _ _ he]
  simp only [State.afterOffers, State.unskipped, hj]
  simp [State.inCycle]

theorem State.beginCycle_eq (s : State) (k : CycleKind) (h : ∀ e, s.engine e = .idle) :
    s.beginCycle k
      = s.inCycle k
          ⟨s.afterOffers (s.buildList k .a), s.afterOffers (s.buildList k .b),
            s.afterOffers (s.buildList k .c), s.afterOffers (s.buildList k .d)⟩
          ⟨(s.unskipped (s.buildList k .a)).tail, (s.unskipped (s.buildList k .b)).tail,
            (s.unskipped (s.buildList k .c)).tail, (s.unskipped (s.buildList k .d)).tail⟩ := by
  have : s.beginCycle k
      = ((((s.inCycle k s.engines ⟨s.buildList k .a, s.buildList k .b, s.buildList k .c,
          s.buildList k .d⟩).offer .a).offer .b).offer .c).offer .d := rfl
  rw [this, State.offer_inCycle _ _ _ _ .a, State.offer_inCycle _ _ _ _ .b,
    State.offer_inCycle _ _ _ _ .c, State.offer_inCycle _ _ _ _ .d]
  · rfl
  all_goals first | exact h .a | exact h .b | exact h .c | exact h .d

/-- The start of a cycle, with the engines IDLE (R85, R89, R94). -/
theorem State.beginCycle_starts (s : State) (k : CycleKind) (h : ∀ e, s.engine e = .idle) :
    s.StartsCycle (s.beginCycle k) k := by
  rw [State.beginCycle_eq s k h]
  refine
    ⟨⟨s.afterOffers (s.buildList k .a), s.afterOffers (s.buildList k .b),
        s.afterOffers (s.buildList k .c), s.afterOffers (s.buildList k .d)⟩,
      ⟨(s.unskipped (s.buildList k .a)).tail, (s.unskipped (s.buildList k .b)).tail,
        (s.unskipped (s.buildList k .c)).tail, (s.unskipped (s.buildList k .d)).tail⟩, ?_, fun e => ?_⟩
  · cases k <;> rfl
  · cases e <;> exact ⟨rfl, rfl⟩

/-- A cycle that has a burst to make has not ended at its start (R91). -/
theorem State.cycleFinished_beginCycle (s : State) (k : CycleKind) (h : ∀ e, s.engine e = .idle) :
    (s.beginCycle k).cycleFinished = true ↔ ¬ s.HasBurst k := by
  rw [State.beginCycle_eq s k h]
  have idle : ∀ e, s.afterOffers (s.buildList k e) = .idle →
      (s.unskipped (s.buildList k e)).tail.isEmpty = true := fun e he => by
    rw [State.unskipped_eq_nil ((State.afterOffers_idle_iff _ _).1 he)]
    rfl
  have hb : ¬ s.HasBurst k ↔ ∀ e, s.afterOffers (s.buildList k e) = .idle := by
    simp only [State.afterOffers_idle_iff, State.HasBurst, not_exists, not_and,
      Bool.not_eq_true, Option.isSome_eq_false_iff, Option.isNone_iff_eq_none]
  rw [hb]
  simp only [State.cycleFinished, State.inCycle, State.enginesIdle, Bool.and_eq_true, beq_iff_eq]
  constructor
  · rintro ⟨-, ⟨⟨ha, hb⟩, hc⟩, hd⟩ e
    cases e <;> assumption
  · intro he
    exact ⟨⟨⟨⟨idle _ (he _), idle _ (he _)⟩, idle _ (he _)⟩, idle _ (he _)⟩,
      ⟨⟨⟨he _, he _⟩, he _⟩, he _⟩⟩

/-- A cycle with no burst to make leaves the engines IDLE and its lists empty. -/
theorem State.beginCycle_empty (s : State) (k : CycleKind) (h : ∀ e, s.engine e = .idle)
    (hb : ¬ s.HasBurst k) :
    s.beginCycle k
      = s.inCycle k ⟨.idle, .idle, .idle, .idle⟩ ⟨[], [], [], []⟩ := by
  have hn : ∀ e, ∀ item ∈ s.buildList k e, s.judgeItem item = none := by
    simpa only [State.HasBurst, not_exists, not_and, Bool.not_eq_true,
      Option.isSome_eq_false_iff, Option.isNone_iff_eq_none] using hb
  have hi := fun e => (State.afterOffers_idle_iff s _).2 (hn e)
  have hu := fun e => State.unskipped_eq_nil (hn e)
  rw [State.beginCycle_eq s k h, hi, hi, hi, hi, hu, hu, hu, hu]
  rfl

theorem State.settleCycle_of_not_finished {s : State} (h : s.cycleFinished = false) :
    s.settleCycle = s := by
  simp [State.settleCycle, State.finishCycles, h]

theorem State.startCycle_of_burst {s : State} {k : CycleKind} (h : ∀ e, s.engine e = .idle)
    (hb : s.HasBurst k) : s.startCycle k = s.beginCycle k := by
  refine State.settleCycle_of_not_finished (Bool.eq_false_iff.2 fun hf => ?_)
  exact (State.cycleFinished_beginCycle s k h).1 hf hb

/-! ## The quiet judgement -/

theorem State.quietNow_iff (s : State) : s.quietNow = true ↔ ¬ s.busyChannel ∧ s.table = [] := by
  simp only [State.quietNow, State.busyChannel, Bool.and_eq_true, List.all_eq_true, allChannels,
    List.mem_finRange, forall_const, List.isEmpty_iff, not_exists]
  refine and_congr_left fun _ => forall_congr' fun c => ?_
  cases (s.chan c).state <;> simp [ChannelState.isTouch]

/-- The quiet judgement of an ACTIVE cycle end, whose cycle record is then gone (R105, R108). -/
theorem State.judgeQuiet_judged (s : State) :
    (s.setCycle none).QuietJudged (s.judgeQuiet.setCycle none) := by
  have hb : (s.setCycle none).busyChannel ↔ s.busyChannel := Iff.rfl
  have ht : (s.setCycle none).table = s.table := rfl
  unfold State.QuietJudged State.judgeQuiet
  rw [hb, ht]
  by_cases hq : s.quietNow = true
  · obtain ⟨hb, ht⟩ := (State.quietNow_iff s).1 hq
    rw [if_pos hq]
    refine ⟨fun h => (h.elim hb fun h => h ht).elim, fun _ _ hx => ?_, fun _ _ hx => ?_⟩
    · rw [if_neg (show s.sched.inactivity ≠ .expired from hx)]
      rfl
    · rw [if_pos (show s.sched.inactivity = .expired from hx)]
      simp only [State.activeToDozeAtEnd, State.leaveActive, State.changeMode, State.post,
        State.setQuiet, State.setInactivity, State.setCycle, State.setPeriod, State.clearMarks,
        State.restartDozePeriod, State.withSched]
  · have hn : s.busyChannel ∨ s.table ≠ [] := by
      by_contra h
      rw [not_or, not_not] at h
      exact hq ((State.quietNow_iff s).2 h)
    rw [if_neg hq]
    refine ⟨fun _ => ?_, fun h1 h2 => (hn.elim h1 fun h => h h2).elim,
      fun h1 h2 => (hn.elim h1 fun h => h h2).elim⟩
    simp only [State.startInactivity, State.setQuiet, State.setInactivity, State.setCycle,
      State.withSched, Scheduler.idleStart]
    rfl

/-! ## The key evaluation and the end of a cycle -/

/-- The offer of several events changes the queue alone. -/
theorem State.postAll_eq (s : State) (bs : List Body) :
    s.postAll bs
      = { s with queue := bs.foldl (fun q b => q.offer s.table.length b) s.queue } := by
  induction bs generalizing s with
  | nil => rfl
  | cons b rest ih => exact ih (s.post b)

/-- What an evaluation changes: the release notes, the keys and the queue. -/
theorem State.evaluateKeys_eq (s : State) :
    s.evaluateKeys
      = { s with
          channels := Vector.ofFn fun c => { s.chan c with note := .none }
          keys := Vector.ofFn (keyAfter s.key fun c => (s.chan c).copy)
          queue :=
            (keyEvents s.key fun c => (s.chan c).copy).foldl
              (fun q b => q.offer s.table.length b) s.queue } := by
  unfold State.evaluateKeys
  rw [State.postAll_eq]
  simp only [State.clearNotes, State.mapKeys, State.mapChannels, State.chan]

/-- An evaluation reads no engine and nothing of the scheduler. -/
theorem State.evaluateKeys_scheduled (s : State) (engines : PerEngine Engine) (d : Scheduler) :
    ({ s with engines := engines, sched := d } : State).evaluateKeys
      = { s.evaluateKeys with engines := engines, sched := d } := by
  rw [State.evaluateKeys_eq, State.evaluateKeys_eq]
  rfl

/-- The state at the end of an ACTIVE or DOZE cycle, after the count and the evaluation (R92, steps 1 and
2), its cycle record gone. -/
def State.counted (s : State) : State :=
  { s.evaluateKeys with
    sched := { s.sched with cycleCount := s.sched.cycleCount + 1, cycle := none } }

theorem State.counted_eq (s : State) : (s.countCycle.evaluateKeys).setCycle none = s.counted := by
  simp only [State.counted, State.evaluateKeys_eq]
  rfl

/-- The quiet judgement leaves the mode and the cycle, or it leads into DOZE, with the marks of the cycle
cleared and the period timer running. -/
theorem State.judgeQuiet_cases (s : State) :
    s.judgeQuiet.engines = s.engines
      ∧ ((s.judgeQuiet.sched.mode = s.sched.mode ∧ s.judgeQuiet.sched.cycle = s.sched.cycle
          ∧ s.judgeQuiet.sched.periodTimer = s.sched.periodTimer)
        ∨ (s.judgeQuiet.sched.mode = .doze
          ∧ s.judgeQuiet.sched.cycle
            = s.sched.cycle.map (fun cy => { cy with late := false, startOwed := false })
          ∧ s.judgeQuiet.sched.periodTimer ≠ none)) := by
  unfold State.judgeQuiet
  split
  · split
    · refine ⟨?_, .inr ⟨?_, ?_, ?_⟩⟩ <;>
        simp only [State.activeToDozeAtEnd, State.leaveActive, State.changeMode, State.post,
          State.setQuiet, State.setInactivity, State.setCycle, State.setPeriod, State.clearMarks,
          State.restartDozePeriod, State.withSched, ne_eq, reduceCtorEq, not_false_eq_true]
    · exact ⟨rfl, .inl ⟨rfl, rfl, rfl⟩⟩
  · exact ⟨rfl, .inl ⟨rfl, rfl, rfl⟩⟩

/-- The end of an ACTIVE or DOZE cycle (R92): after the count, the evaluation and the quiet judgement, a mark
starts the next cycle, and in DOZE a stopped period timer restarts. -/
theorem State.endScanCycle_cases (s : State) (k : CycleKind) (cy : Cycle)
    (h : s.sched.cycle = some cy) :
    ∃ v : State,
      (k = .active → s.sched.mode = .active → s.counted.QuietJudged v)
      ∧ (k ≠ .active ∨ s.sched.mode ≠ .active → v = s.counted)
      ∧ v.sched.cycle = none ∧ v.engines = s.engines
      ∧ (v.sched.mode ≠ s.sched.mode → s.endScanCycle k = v)
      ∧ (v.sched.mode = s.sched.mode →
        s.endScanCycle k
          = if s.isScanning && (cy.late || cy.startOwed) then
              v.beginCycle s.sched.mode.cycleKind
            else if s.sched.mode = .doze ∧ s.sched.periodTimer = none then v.restartDozePeriod
            else v) := by
  have hev : s.countCycle.evaluateKeys.sched = s.countCycle.sched := by rw [State.evaluateKeys_eq]
  have hen : s.countCycle.evaluateKeys.engines = s.engines := by rw [State.evaluateKeys_eq]; rfl
  have hm : s.countCycle.evaluateKeys.sched.mode = s.sched.mode := by rw [hev]; rfl
  have hc : s.countCycle.evaluateKeys.sched.cycle = some cy := by rw [hev]; exact h
  have hp : s.countCycle.evaluateKeys.sched.periodTimer = s.sched.periodTimer := by rw [hev]; rfl
  have hs : s.countCycle.evaluateKeys.isScanning = s.isScanning := by
    simp only [State.isScanning, hm]
  unfold State.endScanCycle
  rw [← State.counted_eq]
  generalize s.countCycle.evaluateKeys = u at *
  dsimp only
  by_cases hk : k = .active ∧ s.sched.mode = .active
  · rw [if_pos (show k = .active ∧ u.sched.mode = .active from ⟨hk.1, hm.trans hk.2⟩)]
    obtain ⟨he, hj⟩ := u.judgeQuiet_cases
    have hv : (u.judgeQuiet.setCycle none).sched.mode = u.judgeQuiet.sched.mode := rfl
    refine ⟨u.judgeQuiet.setCycle none, fun _ _ => u.judgeQuiet_judged,
      fun h => (h.elim (fun h => h hk.1) fun h => h hk.2).elim, rfl, he.trans hen, fun hmode => ?_,
      fun hmode => ?_⟩
    · rcases hj with ⟨h1, -, -⟩ | ⟨-, h2, h3⟩
      · exact (hmode (hv.trans (h1.trans hm))).elim
      · rw [h2, hc]
        simp [State.nextStart, h3]
    · rcases hj with ⟨h1, h2, h3⟩ | ⟨h1, -, -⟩
      · rw [h2, hc]
        simp only [State.nextStart, State.isScanning, h1, hm, h3, hp]
        rfl
      · rw [hv, h1, hk.2] at hmode
        cases hmode
  · have hk' : ¬ (k = .active ∧ u.sched.mode = .active) := fun h => hk ⟨h.1, hm.symm.trans h.2⟩
    rw [if_neg hk']
    refine ⟨_, fun h1 h2 => (hk ⟨h1, h2⟩).elim, fun _ => rfl, rfl, hen,
      fun h => (h hm).elim, fun _ => ?_⟩
    simp only [hc, State.nextStart, hs, hm, hp]

theorem State.engines_of_idle {s : State} (h : ∀ e, s.engine e = .idle) :
    s.engines = ⟨.idle, .idle, .idle, .idle⟩ := by
  have ha := h .a
  have hb := h .b
  have hc := h .c
  have hd := h .d
  rcases s with ⟨_, ⟨a, b, c, d⟩⟩
  simp only [State.engine, PerEngine.get] at ha hb hc hd
  simp only [ha, hb, hc, hd]

/-- The end of a cycle that has no burst to make (R91, R92). -/
theorem State.endCycle_empty (s : State) (h : ∀ e, s.engine e = .idle) (hs : s.scanningNow)
    (hb : ¬ s.HasBurst s.sched.mode.cycleKind) :
    (s.beginCycle s.sched.mode.cycleKind).endCycle.sched.cycle = none
      ∧ s.RunsCycle (s.beginCycle s.sched.mode.cycleKind).endCycle := by
  rw [s.beginCycle_empty _ h hb, ← State.engines_of_idle h]
  rcases hs with hm | hm
  all_goals
    have hk := congrArg Mode.cycleKind hm
    rw [hk, Mode.cycleKind] at hb
    rw [hk, Mode.cycleKind]
  · obtain ⟨v, h1, -, h3, -, h5, h6⟩ :=
      State.endScanCycle_cases (s.inCycle .active s.engines ⟨[], [], [], []⟩) .active _ rfl
    have hend : (s.inCycle .active s.engines ⟨[], [], [], []⟩).endCycle = v := by
      show State.endScanCycle _ .active = v
      by_cases hv : v.sched.mode = (s.inCycle .active s.engines ⟨[], [], [], []⟩).sched.mode
      · rw [h6 hv]
        simp [State.inCycle, hm]
      · exact h5 hv
    rw [hend]
    refine ⟨h3, fun _ => ⟨fun h => (hb h).elim, fun _ => ?_⟩, fun hd => ?_⟩
    · have := h1 rfl hm
      rw [State.counted, State.inCycle, State.evaluateKeys_scheduled] at this
      rw [State.evaluateKeys_eq] at this ⊢
      exact this
    · rw [hm] at hd
      cases hd
  · obtain ⟨v, -, h2, h3, -, -, h6⟩ :=
      State.endScanCycle_cases (s.inCycle .doze s.engines ⟨[], [], [], []⟩) .doze _ rfl
    have hv := h2 (.inl (by decide))
    have hend : (s.inCycle .doze s.engines ⟨[], [], [], []⟩).endCycle = v := by
      show State.endScanCycle _ .doze = v
      rw [h6 (by rw [hv]; rfl)]
      simp [State.inCycle, Scheduler.periodAtStart]
    rw [hend]
    refine ⟨h3, fun ha => ?_, fun _ => ⟨fun h => (hb h).elim, fun _ => ?_⟩⟩
    · rw [hm] at ha
      cases ha
    · rw [hv, State.counted, State.inCycle, State.evaluateKeys_scheduled, State.evaluateKeys_eq]
      rfl

/-- A cycle begun by the mode, and ended where it has no burst to make, whatever further ends are looked
for (R85, R91). -/
theorem State.finishCycles_beginCycle (s : State) (h : ∀ e, s.engine e = .idle) (hs : s.scanningNow)
    (n : Nat) :
    s.RunsCycle (State.finishCycles (n + 1) (s.beginCycle s.sched.mode.cycleKind)) := by
  by_cases hb : s.HasBurst s.sched.mode.cycleKind
  · have hf : (s.beginCycle s.sched.mode.cycleKind).cycleFinished = false :=
      Bool.eq_false_iff.2 fun hf => (s.cycleFinished_beginCycle _ h).1 hf hb
    have : State.finishCycles (n + 1) (s.beginCycle s.sched.mode.cycleKind)
        = s.beginCycle s.sched.mode.cycleKind := by
      simp [State.finishCycles, hf]
    rw [this]
    have := s.beginCycle_starts s.sched.mode.cycleKind h
    refine ⟨fun hm => ?_, fun hm => ?_⟩
    all_goals
      have hk := congrArg Mode.cycleKind hm
      rw [hk, Mode.cycleKind] at this hb
      rw [hk, Mode.cycleKind]
      exact ⟨fun _ => this, fun hn => (hn hb).elim⟩
  · obtain ⟨h1, h2⟩ := s.endCycle_empty h hs hb
    have : State.finishCycles (n + 1) (s.beginCycle s.sched.mode.cycleKind)
        = (s.beginCycle s.sched.mode.cycleKind).endCycle := by
      have hf := (s.cycleFinished_beginCycle _ h).2 hb
      cases n <;> simp [State.finishCycles, State.cycleFinished, h1] at hf ⊢ <;> simp [hf]
    rw [this]
    exact h2

/-- The start of an ACTIVE or DOZE cycle by the mode, ended in its claim where it has no burst to make (R85,
R91, R92). -/
theorem State.startCycle_runs (s : State) (h : ∀ e, s.engine e = .idle) :
    s.RunsCycle (s.startCycle s.sched.mode.cycleKind) := by
  by_cases hs : s.scanningNow
  · exact s.finishCycles_beginCycle h hs 2
  · exact ⟨fun hm => (hs (.inl hm)).elim, fun hm => (hs (.inr hm)).elim⟩

/-! ## Changes of mode and the signal of work -/

/-- What a channel keeps of its slots at a wake from DOZE. -/
theorem State.wakened_eq (s : State) (cause : ModeCause) :
    (((s.changeMode .active cause).reseedNonDoze.startInactivity).setQuiet false)
      = s.wakened cause := by
  simp only [State.changeMode, State.reseedNonDoze, State.startInactivity, State.setQuiet,
    State.setInactivity, State.withSched, State.post, State.mapChannels, State.wakened,
    Scheduler.idleStart, State.isNonDozeEntry, Channel.setReseeds, State.chan]
  simp only [Bool.beq_eq_decide_eq, Bool.decide_eq_false]
  rfl

@[simp] theorem State.wakened_engines (s : State) (cause : ModeCause) :
    (s.wakened cause).engines = s.engines := by
  unfold State.wakened
  rfl

@[simp] theorem State.wakened_sched (s : State) (cause : ModeCause) :
    (s.wakened cause).sched
      = { s.sched with mode := .active, inactivity := s.sched.idleStart, quiet := false } := by
  unfold State.wakened
  rfl

@[simp] theorem State.wakened_jobs (s : State) (cause : ModeCause) :
    (s.wakened cause).jobs = s.jobs := by
  unfold State.wakened
  rfl

@[simp] theorem State.wakened_table (s : State) (cause : ModeCause) :
    (s.wakened cause).table = s.table := by
  unfold State.wakened
  rfl

@[simp] theorem State.wakened_queue (s : State) (cause : ModeCause) :
    (s.wakened cause).queue = s.queue.offer s.table.length (.mode .active cause) := by
  unfold State.wakened
  rfl

@[simp] theorem State.withAutoJob_engines (s : State) (c : ChannelNo) :
    (s.withAutoJob c).engines = s.engines := by
  unfold State.withAutoJob
  rfl

@[simp] theorem State.withAutoJob_sched (s : State) (c : ChannelNo) :
    (s.withAutoJob c).sched = s.sched := by
  unfold State.withAutoJob
  rfl

@[simp] theorem State.withAutoJob_table (s : State) (c : ChannelNo) :
    (s.withAutoJob c).table = s.table := by
  unfold State.withAutoJob
  rfl

@[simp] theorem State.withAutoJob_queue (s : State) (c : ChannelNo) :
    (s.withAutoJob c).queue = s.queue := by
  unfold State.withAutoJob
  rfl

/-- A change from DOZE to ACTIVE with a cycle in flight touches no engine and no work list. -/
theorem State.LeavesDoze.inFlight {s t : State} {cause : ModeCause} {cy : Cycle}
    (h : s.LeavesDoze t cause) (hc : s.sched.cycle = some cy) :
    t.engines = s.engines ∧ ∃ cy', t.sched.cycle = some cy' ∧ cy'.lists = cy.lists := by
  have hw := State.wakened_engines s cause
  rw [h.1 cy hc]
  generalize s.wakened cause = w at hw ⊢
  exact ⟨hw, _, rfl, rfl⟩

/-- The signal of work with a cycle in flight touches no engine and no work list. -/
theorem State.WorkSignalled.inFlight {s t : State} {cy : Cycle} (h : s.WorkSignalled t)
    (hc : s.sched.cycle = some cy) (hs : s.scanningNow) :
    t.engines = s.engines ∧ ∃ cy', t.sched.cycle = some cy' ∧ cy'.lists = cy.lists := by
  rcases hs with hs | hs
  · rw [h.2.1 hs]
    exact ⟨rfl, cy, hc, rfl⟩
  · exact (h.1 hs).inFlight hc

/-- The change from DOZE to ACTIVE (R106). -/
theorem State.dozeToActive_leaves (s : State) (cause : ModeCause) :
    s.LeavesDoze (s.dozeToActive cause) cause := by
  have hw := s.wakened_eq cause
  have hd : s.dozeToActive cause
      = if s.sched.cycle.isSome then ((s.wakened cause).setPeriod none).oweStart
        else (s.wakened cause).startCycle .active := by
    rw [← hw]
    rfl
  have hc : (s.wakened cause).sched.cycle = s.sched.cycle := rfl
  have hi : (∀ e, s.engine e = .idle) → ∀ e, (s.wakened cause).engine e = .idle :=
    fun h e => by
      unfold State.wakened State.engine
      exact h e
  have hm : (s.wakened cause).sched.mode.cycleKind = .active := rfl
  unfold State.LeavesDoze
  rw [hd]
  clear hw hd
  generalize s.wakened cause = w at *
  refine ⟨fun cy h => ?_, fun h he => ?_⟩
  · simp [h, hc, State.setPeriod, State.oweStart, State.setCycle, State.withSched]
  · rw [h, ← hm]
    exact w.startCycle_runs (hi he)

/-- The signal of new work (R107, R108). -/
theorem State.workSignal_signals (s : State) : s.WorkSignalled s.workSignal := by
  unfold State.workSignal
  refine ⟨fun h => ?_, fun h => ?_, fun h => ?_⟩
  · rw [h]
    exact s.dozeToActive_leaves .work
  · rw [h]
    rfl
  · rcases h with h | h <;> rw [h]

/-- The mode effect of a CALIBRATE or MEASURE, whose work gives the first SERVICE cycle a burst (R102,
R180, R181). -/
theorem State.workTaken_takes (s : State) (h : s.HasBurst .service) : s.TakesWork s.workTaken := by
  unfold State.workTaken
  refine ⟨fun hm _ he => ?_, fun hm => ?_⟩
  · rw [hm]
    have hb : (s.changeMode .service .work).HasBurst .service := h
    have hi : ∀ e, (s.changeMode .service .work).engine e = .idle := he
    have := State.beginCycle_starts _ .service hi
    rw [← State.startCycle_of_burst hi hb] at this
    exact this
  · have := s.workSignal_signals
    cases hs : s.sched.mode with
    | stopped => exact (hm hs).elim
    | service => exact this
    | active => exact this
    | doze => exact this

/-! ## Automatic jobs -/

theorem Channel.enterCalibration_eq (ch : Channel) : ch.enterCalibration = ch.jobCreated := by
  cases h : ch.state <;> cases hn : ch.note <;>
    simp [Channel.enterCalibration, Channel.jobCreated, Channel.noteReconfig,
      Channel.discardBaselines, Slot.emptied, ChannelState.isTouch, ReleaseNote.toReconfig, h, hn]

/-- The creation of a job (R64, R67). -/
theorem State.createJob_eq (s : State) (c : ChannelNo) (origin : JobOrigin) :
    s.createJob c origin
      = { s with
          channels := s.channels.set c (s.chan c).jobCreated
          jobs := s.jobs.set c (some (newJob s.nextJob origin (s.chan c)))
          nextJob := s.nextJob + 1 } := by
  unfold State.createJob newJob
  rw [Channel.enterCalibration_eq]
  cases (s.chan c).config.windowMode <;> rfl

theorem State.chan_ofFn (s : State) :
    (Vector.ofFn fun c => s.chan c) = s.channels := by
  ext i hi
  simp [State.chan]

theorem State.job_ofFn (s : State) : (Vector.ofFn fun c => s.job c) = s.jobs := by
  ext i hi
  simp [State.job]

/-- One job of one origin for each of several channels, in order (R64, R65). -/
theorem State.createJobs_eq (s : State) (origin : JobOrigin) (cs : List ChannelNo) (h : cs.Nodup) :
    cs.foldl (fun s c => s.createJob c origin) s
      = { s with
          channels := Vector.ofFn fun c => if c ∈ cs then (s.chan c).jobCreated else s.chan c
          jobs := Vector.ofFn fun c =>
            if c ∈ cs then some (newJob (s.nextJob + cs.idxOf c) origin (s.chan c)) else s.job c
          nextJob := s.nextJob + cs.length } := by
  induction cs generalizing s with
  | nil =>
    simp only [List.foldl_nil, List.not_mem_nil, if_false, State.chan_ofFn, State.job_ofFn,
      List.length_nil, Nat.add_zero]
  | cons d rest ih =>
    obtain ⟨hd, hr⟩ := List.nodup_cons.1 h
    rw [List.foldl_cons, ih _ hr, State.createJob_eq]
    have hc : ∀ c, (({ s with
          channels := s.channels.set d (s.chan d).jobCreated
          jobs := s.jobs.set d (some (newJob s.nextJob origin (s.chan d)))
          nextJob := s.nextJob + 1 } : State).chan c)
        = if c = d then (s.chan d).jobCreated else s.chan c := fun c => by
      simp [State.chan, Vector.getElem_set, Fin.ext_iff, eq_comm]
    have hj : ∀ c, (({ s with
          channels := s.channels.set d (s.chan d).jobCreated
          jobs := s.jobs.set d (some (newJob s.nextJob origin (s.chan d)))
          nextJob := s.nextJob + 1 } : State).job c)
        = if c = d then some (newJob s.nextJob origin (s.chan d)) else s.job c := fun c => by
      simp [State.job, Vector.getElem_set, Fin.ext_iff, eq_comm]
    simp only [hc, hj]
    have e1 : (fun c => if c ∈ rest then (if c = d then (s.chan d).jobCreated else s.chan c).jobCreated
        else if c = d then (s.chan d).jobCreated else s.chan c)
        = fun c => if c ∈ d :: rest then (s.chan c).jobCreated else s.chan c := by
      funext c
      by_cases hcd : c = d
      · simp [hcd, hd]
      · simp [hcd]
    have e2 : (fun c => if c ∈ rest then
          some
            (newJob (s.nextJob + 1 + rest.idxOf c) origin
              (if c = d then (s.chan d).jobCreated else s.chan c))
        else if c = d then some (newJob s.nextJob origin (s.chan d)) else s.job c)
        = fun c => if c ∈ d :: rest then
            some (newJob (s.nextJob + (d :: rest).idxOf c) origin (s.chan c)) else s.job c := by
      funext c
      by_cases hcd : c = d
      · simp [hcd, hd]
      · simp only [hcd, if_false, List.mem_cons, false_or, List.idxOf_cons_ne _ (Ne.symm hcd)]
        rw [Nat.add_assoc, Nat.add_comm 1]
    rw [e1, e2, List.length_cons, Nat.add_assoc, Nat.add_comm 1]

theorem State.wantsAutoJob_iff (s : State) (c : ChannelNo) : s.wantsAutoJob c = true ↔ s.autoDue c := by
  simp [State.wantsAutoJob, State.autoDue, State.measurePending, and_assoc]

theorem State.isScanning_iff (s : State) : s.isScanning = true ↔ s.scanningNow := by
  simp [State.isScanning, State.scanningNow]

theorem State.inScanList_iff (s : State) (c : ChannelNo) : s.inScanList c = true ↔ s.listed c := by
  simp [State.inScanList, State.listed]

/-- An automatic job, created and signalled (R64, R107). -/
theorem State.autoJob_signals (s : State) (c : ChannelNo) :
    (s.withAutoJob c).WorkSignalled (s.autoJob c) := by
  have : s.createJob c .automatic = s.withAutoJob c := s.createJob_eq c .automatic
  unfold State.autoJob
  rw [this]
  exact State.workSignal_signals _

/-- The automatic job of a FAULT exit (R44). -/
theorem State.autoJobAtFaultExit_cases (s : State) (c : ChannelNo) :
    (s.autoDue c ∧ s.scanningNow → (s.withAutoJob c).WorkSignalled (s.autoJobAtFaultExit c))
      ∧ (¬ (s.autoDue c ∧ s.scanningNow) → s.autoJobAtFaultExit c = s) := by
  have h : ((s.wantsAutoJob c && s.isScanning) = true) ↔ s.autoDue c ∧ s.scanningNow := by
    rw [Bool.and_eq_true, State.wantsAutoJob_iff, State.isScanning_iff]
  unfold State.autoJobAtFaultExit
  refine ⟨fun hd => ?_, fun hd => if_neg (mt h.1 hd)⟩
  rw [if_pos (h.2 hd)]
  exact s.autoJob_signals c

/-- The automatic job after a SET_CHANNEL and at the end of a MEASURE (R34, R66). -/
theorem State.autoJobIfScanned_cases (s : State) (c : ChannelNo) :
    (s.autoDue c ∧ s.listed c ∧ s.scanningNow →
        (s.withAutoJob c).WorkSignalled (s.autoJobIfScanned c))
      ∧ (¬ (s.autoDue c ∧ s.listed c ∧ s.scanningNow) → s.autoJobIfScanned c = s) := by
  have h : ((s.wantsAutoJob c && s.inScanList c && s.isScanning) = true)
      ↔ s.autoDue c ∧ s.listed c ∧ s.scanningNow := by
    rw [Bool.and_eq_true, Bool.and_eq_true, State.wantsAutoJob_iff, State.inScanList_iff,
      State.isScanning_iff, and_assoc]
  unfold State.autoJobIfScanned
  refine ⟨fun hd => ?_, fun hd => if_neg (mt h.1 hd)⟩
  rw [if_pos (h.2 hd)]
  exact s.autoJob_signals c

/-- The doze wake (R107). -/
theorem State.touchSignal_cases (s : State) (c : ChannelNo) :
    ((s.sched.mode = .doze ∧ ∃ en ∈ s.sched.scanList, en.channel = c ∧ en.doze = true) →
        s.LeavesDoze (s.touchSignal c) .touch)
      ∧ (¬ (s.sched.mode = .doze ∧ ∃ en ∈ s.sched.scanList, en.channel = c ∧ en.doze = true) →
        s.touchSignal c = s) := by
  have h : (s.sched.mode = .doze ∧ s.isDozeMember c = true)
      ↔ s.sched.mode = .doze ∧ ∃ en ∈ s.sched.scanList, en.channel = c ∧ en.doze = true := by
    simp [State.isDozeMember]
  unfold State.touchSignal
  refine ⟨fun hd => ?_, fun hd => if_neg (mt h.1 hd)⟩
  rw [if_pos (h.2 hd)]
  exact s.dozeToActive_leaves .touch

/-! ## The start of scanning -/

/-- The part right after a change of mode into scanning, every slot reseeded (R61, R101). -/
def State.reseeded (s : State) (m : Mode) : State := (s.changeMode m .request).reseedAll

theorem State.reseeded_eq (s : State) (m : Mode) :
    s.reseeded m
      = { s with
          channels := Vector.ofFn fun c =>
            { s.chan c with slots := (s.chan c).slots.map fun sl => { sl with reseed := true } }
          sched := { s.sched with mode := m }
          queue := s.queue.offer s.table.length (.mode m .request) } := by
  simp only [State.reseeded, State.reseedAll, State.mapChannels, State.changeMode, State.withSched,
    State.post, State.chan, Channel.setReseeds]

theorem State.chan_reseeded (s : State) (m : Mode) (c : ChannelNo) :
    (s.reseeded m).chan c
      = { s.chan c with slots := (s.chan c).slots.map fun sl => { sl with reseed := true } } := by
  rw [State.reseeded_eq]
  simp [State.chan]

/-- The channels that the start of scanning asks an automatic job for (R104). -/
theorem State.autoJobChannels_reseeded (s : State) (m : Mode) :
    (s.reseeded m).autoJobChannels = s.dueAtStart := by
  unfold State.autoJobChannels State.dueAtStart allChannels
  refine List.filter_congr fun c _ => ?_
  have ht : (s.reseeded m).table = s.table := by rw [State.reseeded_eq]
  have hl : (s.reseeded m).sched.scanList = s.sched.scanList := by rw [State.reseeded_eq]
  simp only [State.wantsAutoJob, State.inScanList, State.measurePending, State.chan_reseeded, ht, hl,
    List.any_eq_not_all_not, Bool.not_not]
  cases (s.chan c).state == .uncal <;> cases (s.chan c).config.autocal <;> simp [Bool.and_comm, bne]

/-- The change of mode into scanning, up to its jobs (R61, R66, R104). -/
theorem State.scanningStarted_eq (s : State) (m : Mode) :
    (s.reseeded m).autoJobs (s.reseeded m).autoJobChannels = s.scanningStarted m := by
  have hn : s.dueAtStart.Nodup := (List.nodup_finRange 24).filter _
  rw [State.autoJobChannels_reseeded]
  unfold State.autoJobs
  rw [State.createJobs_eq _ _ _ hn]
  have e1 : (fun c => if c ∈ s.dueAtStart then ((s.reseeded m).chan c).jobCreated
      else (s.reseeded m).chan c)
      = fun c => if c ∈ s.dueAtStart then (s.chan c).jobCreated
        else { s.chan c with slots := (s.chan c).slots.map fun sl => { sl with reseed := true } } := by
    funext c
    rw [State.chan_reseeded]
    split
    · simp [Channel.jobCreated, Function.comp_def]
    · rfl
  have e2 : (fun c => if c ∈ s.dueAtStart then
        some (newJob ((s.reseeded m).nextJob + s.dueAtStart.idxOf c) .automatic ((s.reseeded m).chan c))
      else (s.reseeded m).job c)
      = fun c => if c ∈ s.dueAtStart then
          some (newJob (s.nextJob + s.dueAtStart.idxOf c) .automatic (s.chan c)) else s.job c := by
    funext c
    rw [State.chan_reseeded]
    have hj : (s.reseeded m).job c = s.job c := by simp only [State.job, State.reseeded_eq]
    have hn : (s.reseeded m).nextJob = s.nextJob := by rw [State.reseeded_eq]
    rw [hj, hn]
    rfl
  rw [e1, e2, State.reseeded_eq]
  unfold State.scanningStarted
  rfl

/-! ## An engine that returns to IDLE in a cycle that goes on -/

/-- With its list empty and another engine at work, an engine returns to IDLE and nothing else happens
(R89, R91). -/
theorem State.engineFree_of_busy (s : State) (e other : EngineId) (cy : Cycle)
    (hc : s.sched.cycle = some cy) (hl : cy.lists.get e = []) (ho : other ≠ e)
    (hb : s.engine other ≠ .idle) : s.engineFree e = s.setEngine e .idle := by
  have hset : cy.lists.set e [] = cy.lists := by
    rw [← hl]
    cases e <;> rfl
  have hoff : (s.setEngine e .idle).offer e = s.setEngine e .idle := by
    have he : (s.setEngine e .idle).engine e = .idle := by cases e <;> rfl
    have hc' : (s.setEngine e .idle).sched.cycle = some cy := hc
    unfold State.offer
    rw [hc']
    simp only [he, if_true, hl]
    unfold State.offerList State.setList State.setCycle State.withSched
    rw [hc']
    simp only [Option.map_some, hset]
    rw [← hc']
  unfold State.engineFree
  rw [hoff]
  refine State.settleCycle_of_not_finished ?_
  have hne : (s.setEngine e .idle).engine other ≠ .idle := by
    have : (s.setEngine e .idle).engine other = s.engine other := by
      cases e <;> cases other <;> first | rfl | exact (ho rfl).elim
    rwa [this]
  have hx : (s.setEngine e .idle).enginesIdle = false := by
    refine Bool.eq_false_iff.2 fun h => hne ?_
    simp only [State.enginesIdle, Bool.and_eq_true, beq_iff_eq] at h
    obtain ⟨⟨⟨h1, h2⟩, h3⟩, h4⟩ := h
    cases other <;> assumption
  unfold State.cycleFinished
  rw [show (s.setEngine e .idle).sched.cycle = some cy from hc]
  simp [hx]

end Sys2Proof.Machine
end

