-- ==== Sys2Proof/Laws/Values.lean ====
section
/-! SUPPORT. The values of a channel record, of a job and of a sample stay in their ranges (R10, R21, R25,
R26, R63): one lemma for each operation on a record. -/

namespace Sys2Proof.Machine

theorem forall_none {α : Type} {p : α → Prop} : ∀ x ∈ (none : Option α), p x :=
  fun _ h => (nomatch h : False).elim

/-- A sample's values lie in their ranges (R10). -/
def Sample.InRange (x : Sample) : Prop := isCount x.raw ∧ isCount x.noise

/-- The sample of two half-counts that are saturated (R6, R10). -/
theorem BurstRecord.sample_inRange (r : BurstRecord) (limit : Nat) {c1 : Nat} (counter cycles : Nat)
    (h : isCount c1) : (r.sample limit c1 (countUp counter cycles)).InRange := by
  unfold Sample.InRange BurstRecord.sample isCount noiseMetric countUp counterTop at *
  dsimp only
  omega

/-- The sample of an engine in its second half-window (R6). -/
theorem State.CountsKept.sample {s : State} (h : s.CountsKept) {e : EngineId} {r : BurstRecord}
    {timer counter c1 : Nat} (he : s.engine e = .half2 r timer counter c1) (limit cycles : Nat) :
    (r.sample limit c1 (countUp counter cycles)).InRange := by
  have := h e
  simp only [he] at this
  exact r.sample_inRange limit counter cycles this.2

/-- The ranges of a configuration that the ranges of the live fields rest on (R20). -/
theorem ChannelConfig.valid_runs {g : ChannelConfig} (h : g.valid = true) :
    g.driftInterval ≤ 255 ∧ g.negRun ≤ 15 ∧ g.maxOnTime ≤ 240 := by
  simp only [ChannelConfig.valid, inRange, Bool.and_eq_true, decide_eq_true_eq] at h
  omega

/-! ## Slots -/

/-- A slot's baseline and filtered value lie in 0..262128 (R21). -/
def Slot.InRange (sl : Slot) : Prop :=
  (∀ b ∈ sl.baseline, b ≤ 262128) ∧ ∀ f ∈ sl.filtered, f ≤ 262128

theorem Slot.emptied_inRange (sl : Slot) : sl.emptied.InRange :=
  ⟨forall_none, forall_none⟩

theorem Slot.InRange.modify {l : List Slot} (h : ∀ sl ∈ l, sl.InRange) {f : Slot → Slot}
    (hf : ∀ sl, sl.InRange → (f sl).InRange) (i : Nat) : ∀ sl ∈ l.modify i f, sl.InRange := by
  induction l generalizing i with
  | nil => cases i <;> simp
  | cons a rest ih =>
    have ha := h a List.mem_cons_self
    have hr := fun sl hsl => h sl (List.mem_cons_of_mem a hsl)
    cases i with
    | zero =>
      intro sl hsl
      rcases List.mem_cons.1 hsl with rfl | hsl
      · exact hf a ha
      · exact hr sl hsl
    | succ i =>
      intro sl hsl
      rcases List.mem_cons.1 hsl with rfl | hsl
      · exact ha
      · exact ih hr i sl hsl

/-- The next filtered value lies between the old one and 16 times the raw value (R28). -/
theorem Slot.InRange.nextFiltered {sl : Slot} (h : sl.InRange) (k : Nat) {raw : Nat}
    (hr : isCount raw) : sl.nextFiltered k raw ≤ 262128 := by
  unfold isCount at hr
  unfold Slot.nextFiltered
  split
  · rename_i f hf
    have hf' := h.2 f hf
    split
    · omega
    · have hp : (1 : Int) ≤ 2 ^ k := by
        have : (0 : Int) < 2 ^ k := by positivity
        omega
      by_cases hd : (0 : Int) ≤ (16 * raw : Nat) - (f : Int)
      · have := Int.ediv_le_self (2 ^ k) hd
        omega
      · have := Int.ediv_neg_of_neg_of_pos (Int.not_le.1 hd) (show (0 : Int) < 2 ^ k by omega)
        omega
  · omega

/-! ## The record -/

/-- A record whose slots and live fields are all in range, the slots said by `Slot.InRange`. -/
theorem Channel.valuesKept_iff (ch : Channel) :
    ch.ValuesKept ↔ (∀ sl ∈ ch.slots, sl.InRange)
      ∧ ch.noisyRun ≤ 15 ∧ ch.faultRun < 3 ∧ ch.goodRun < 8 ∧ ch.driftCount ≤ 255 ∧ ch.negRun ≤ 15
      ∧ (∀ ms ∈ ch.maxOn, 1 ≤ ms ∧ ms ≤ 60000)
      ∧ isCount ch.lastRaw ∧ isCount ch.lastNoise ∧ ∀ d ∈ ch.lastDelta, -2048 ≤ d ∧ d ≤ 2047 := Iff.rfl

/-- The slots may be replaced by others in range. -/
theorem Channel.ValuesKept.withSlots {ch : Channel} (h : ch.ValuesKept) {slots : List Slot}
    (hs : ∀ sl ∈ slots, sl.InRange) : ({ ch with slots := slots } : Channel).ValuesKept := ⟨hs, h.2⟩

theorem Channel.ValuesKept.modifySlot {ch : Channel} (h : ch.ValuesKept) (i : Nat) {f : Slot → Slot}
    (hf : ∀ sl, sl.InRange → (f sl).InRange) : (ch.modifySlot i f).ValuesKept :=
  h.withSlots (Slot.InRange.modify h.1 hf i)

/-- The reseed flags are set (R61). -/
theorem Channel.ValuesKept.setReseeds {ch : Channel} (h : ch.ValuesKept) :
    ch.setReseeds.ValuesKept :=
  h.withSlots fun sl' hsl' => by
    obtain ⟨sl, hsl, rfl⟩ := List.mem_map.1 hsl'
    exact h.1 sl hsl

/-- An entry into TOUCHED, which starts the max-on timer (R54). -/
theorem Channel.ValuesKept.touch {ch : Channel} (h : ch.ValuesKept) (hm : ch.config.maxOnTime ≤ 240) :
    ch.touch.ValuesKept := by
  refine ⟨h.1, h.2.1, h.2.2.1, h.2.2.2.1, h.2.2.2.2.1, h.2.2.2.2.2.1, fun ms hms => ?_,
    h.2.2.2.2.2.2.2⟩
  simp only [Channel.touch, startTimer, Option.mem_def] at hms
  split at hms
  · cases hms
  · cases hms
    omega

/-- An entry into a state in which the max-on timer is stopped (R54). -/
theorem Channel.ValuesKept.untimed {ch : Channel} (h : ch.ValuesKept) (state : ChannelState)
    (debounce : Nat) : ({ ch with state := state, debounce := debounce, maxOn := none } :
      Channel).ValuesKept :=
  ⟨h.1, h.2.1, h.2.2.1, h.2.2.2.1, h.2.2.2.2.1, h.2.2.2.2.2.1, forall_none,
    h.2.2.2.2.2.2.2⟩

/-- The detection state machine (R51, R54). -/
theorem Channel.ValuesKept.judge {ch : Channel} (h : ch.ValuesKept) (hm : ch.config.maxOnTime ≤ 240)
    (d : Int) : (ch.judge d).ValuesKept := by
  have timed : ∀ state debounce, ({ ch with state := state, debounce := debounce } :
      Channel).ValuesKept := fun _ _ => h
  unfold Channel.judge
  dsimp only
  split <;> repeat' split
  all_goals first
    | exact h.touch hm
    | exact h.untimed _ _
    | exact timed _ _

/-- The stop at the record (R62). -/
theorem Channel.ValuesKept.stop {ch : Channel} (h : ch.ValuesKept) : ch.stop.ValuesKept := by
  unfold Channel.stop
  split
  · exact h.untimed _ _
  · exact h

theorem shiftBaseline_le (b : Nat) (diff : Int) : shiftBaseline b diff ≤ 262128 := by
  unfold shiftBaseline sixteenthsTop
  omega

/-- A re-baseline (R56). -/
theorem Channel.ValuesKept.rebaseline {ch : Channel} (h : ch.ValuesKept) :
    ch.rebaseline.ValuesKept := by
  have kept : ({ ch with driftCount := 0, negRun := 0 } : Channel).ValuesKept :=
    ⟨h.1, h.2.1, h.2.2.1, h.2.2.2.1, Nat.zero_le _, Nat.zero_le _, h.2.2.2.2.2.2⟩
  unfold Channel.rebaseline
  split
  · split
    · refine kept.withSlots fun sl' hsl' => ?_
      obtain ⟨sl, hsl, rfl⟩ := List.mem_map.1 hsl'
      refine ⟨fun b hb => ?_, (h.1 sl hsl).2⟩
      obtain ⟨b', -, rfl⟩ := Option.map_eq_some_iff.1 hb
      exact shiftBaseline_le _ _
    · exact kept
  · exact kept

theorem driftBaseline_le {b f : Nat} (hb : b ≤ 262128) (hf : f ≤ 262128) :
    driftBaseline b f ≤ 262128 := by
  unfold driftBaseline
  split
  · omega
  · split <;> omega

/-- The drift counter and a drift step (R57). -/
theorem Channel.ValuesKept.drift {ch : Channel} (h : ch.ValuesKept)
    (hd : ch.config.driftInterval ≤ 255) : ch.drift.ValuesKept := by
  have counted : ∀ {ch' : Channel}, ch'.ValuesKept → ∀ n, n ≤ 255 →
      ({ ch' with driftCount := n } : Channel).ValuesKept := fun h n hn =>
    ⟨h.1, h.2.1, h.2.2.1, h.2.2.2.1, hn, h.2.2.2.2.2⟩
  unfold Channel.drift
  split
  · exact h
  · split
    · refine counted (h.modifySlot _ fun sl hsl => ?_) 0 (Nat.zero_le _)
      split
      · rename_i b f hb hf
        refine ⟨fun x hx => ?_, hsl.2⟩
        cases hx
        exact driftBaseline_le (hsl.1 b hb) (hsl.2 f hf)
      · exact hsl
    · exact counted h _ (by omega)

theorem Channel.ValuesKept.negRun {ch : Channel} (h : ch.ValuesKept) {n : Nat} (hn : n ≤ 15) :
    ({ ch with negRun := n } : Channel).ValuesKept :=
  ⟨h.1, h.2.1, h.2.2.1, h.2.2.2.1, h.2.2.2.2.1, hn, h.2.2.2.2.2.2⟩

/-- The slots are re-baselined whatever the negative run was, which becomes 0 (R56). -/
theorem Channel.rebaseline_negRun (ch : Channel) (n : Nat) :
    ({ ch with negRun := n } : Channel).rebaseline = ch.rebaseline := by
  unfold Channel.rebaseline
  dsimp only

/-- The negative run, and the NEGATIVE re-baseline (R58). -/
theorem Channel.ValuesKept.negative {ch : Channel} (h : ch.ValuesKept) (hn : ch.config.negRun ≤ 15)
    (c : ChannelNo) (d : Int) : (ch.negative c d).1.ValuesKept := by
  unfold Channel.negative
  dsimp only
  generalize (if d ≤ -(ch.config.negThreshold : Int) then ch.negRun + 1 else 0) = run
  split
  · rw [Channel.rebaseline_negRun]
    exact h.rebaseline
  · exact h.negRun (by omega)

theorem Channel.drift_config (ch : Channel) : ch.drift.config = ch.config := by
  unfold Channel.drift
  split
  · rfl
  · split <;> rfl

/-- The tracking of a clean sample (R55). -/
theorem Channel.ValuesKept.track {ch : Channel} (h : ch.ValuesKept)
    (hd : ch.config.driftInterval ≤ 255) (hn : ch.config.negRun ≤ 15) (was : ChannelState)
    (c : ChannelNo) (d : Int) : (ch.track was c d).1.ValuesKept := by
  unfold Channel.track
  split
  · split
    · exact (h.drift hd).negative (ch.drift_config ▸ hn) c d
    · exact h.negRun (Nat.zero_le _)
  · exact h

theorem deltaOf_bounds (b f : Nat) : -2048 ≤ deltaOf b f ∧ deltaOf b f ≤ 2047 := by
  unfold deltaOf
  omega

theorem Channel.judge_config (ch : Channel) (d : Int) : (ch.judge d).config = ch.config := by
  unfold Channel.judge
  dsimp only
  split <;> repeat' split
  all_goals rfl

/-- A CLEAN sample in a detecting state (R49, R28, R29, R51, R55). -/
theorem Channel.ValuesKept.cleanSample {ch : Channel} (h : ch.ValuesKept) (hv : ch.config.valid = true)
    (c : ChannelNo) (i : Nat) {raw : Nat} (hr : isCount raw) :
    (ch.cleanSample c i raw).channel.ValuesKept := by
  obtain ⟨hd, hn, hm⟩ := ChannelConfig.valid_runs hv
  have off : (ch.noiseOff c i).1.ValuesKept :=
    ⟨h.1, Nat.zero_le _, Nat.zero_lt_succ _, h.2.2.2.1, h.2.2.2.2.1, h.2.2.2.2.2.1, h.2.2.2.2.2.2⟩
  have filtered : ((ch.noiseOff c i).1.filterUpdate i raw).ValuesKept :=
    off.modifySlot i fun sl hsl => ⟨hsl.1, fun x hx => by
      cases hx
      exact hsl.nextFiltered _ hr⟩
  unfold Channel.cleanSample
  dsimp only
  split
  · exact filtered
  · rename_i d hdelta
    have bounds : -2048 ≤ d ∧ d ≤ 2047 := by
      unfold Channel.deltaAt at hdelta
      split at hdelta
      · split at hdelta
        · cases hdelta
          exact deltaOf_bounds _ _
        · cases hdelta
      · cases hdelta
    have last : ({ (ch.noiseOff c i).1.filterUpdate i raw with lastDelta := some d } :
        Channel).ValuesKept :=
      ⟨filtered.1, filtered.2.1, filtered.2.2.1, filtered.2.2.2.1, filtered.2.2.2.2.1,
        filtered.2.2.2.2.2.1, filtered.2.2.2.2.2.2.1, filtered.2.2.2.2.2.2.2.1,
        filtered.2.2.2.2.2.2.2.2.1, fun x hx => by
          cases hx
          exact bounds⟩
    have judged := last.judge hm d
    have hc := Channel.judge_config ({ (ch.noiseOff c i).1.filterUpdate i raw with lastDelta := some d }) d
    exact judged.track (hc ▸ hd) (hc ▸ hn) ch.state c d

/-- A NOISY sample in a detecting state (R46 to R48). -/
theorem Channel.ValuesKept.noisySample {ch : Channel} (h : ch.ValuesKept) (c : ChannelNo) (i : Nat) :
    (ch.noisySample c i).channel.ValuesKept := by
  have run : ({ ch with faultRun := 0, noisyRun := min 15 (ch.noisyRun + 1) } : Channel).ValuesKept :=
    ⟨h.1, Nat.min_le_left _ _, Nat.zero_lt_succ _, h.2.2.2⟩
  have hopped : (({ ch with faultRun := 0, noisyRun := min 15 (ch.noisyRun + 1) } :
      Channel).hop i).ValuesKept := by
    unfold Channel.hop
    split
    · exact run.modifySlot _ fun _ hsl => hsl
    · exact run
  unfold Channel.noisySample
  dsimp only
  split
  · exact hopped
  · exact hopped

/-- A record that loses what it learned (R22, R41, R74). -/
theorem Channel.ValuesKept.discardBaselines {ch : Channel} (h : ch.ValuesKept) :
    ch.discardBaselines.ValuesKept := by
  refine ⟨fun sl' hsl' => ?_, h.2.1, h.2.2.1, h.2.2.2.1, h.2.2.2.2.1, h.2.2.2.2.2.1,
    h.2.2.2.2.2.2.1, h.2.2.2.2.2.2.2.1, h.2.2.2.2.2.2.2.2.1, forall_none⟩
  obtain ⟨sl, -, rfl⟩ := List.mem_map.1 hsl'
  exact sl.emptied_inRange

/-- An entry into FAULT (R41). -/
theorem Channel.ValuesKept.enterFault {ch : Channel} (h : ch.ValuesKept) : ch.enterFault.ValuesKept :=
  ⟨h.discardBaselines.1, Nat.zero_le _, Nat.zero_lt_succ _, Nat.zero_lt_succ _, Nat.zero_le _,
    Nat.zero_le _, forall_none, h.2.2.2.2.2.2.2.1, h.2.2.2.2.2.2.2.2.1, forall_none⟩

/-- A SCAN sample (R38 to R58). -/
theorem Channel.ValuesKept.scanSample {ch : Channel} (h : ch.ValuesKept) (hv : ch.config.valid = true)
    (c : ChannelNo) {x : Sample} (hx : x.InRange) : (ch.scanSample c x).channel.ValuesKept := by
  have seen : ({ ch with lastRaw := x.raw, lastNoise := x.noise } : Channel).ValuesKept :=
    ⟨h.1, h.2.1, h.2.2.1, h.2.2.2.1, h.2.2.2.2.1, h.2.2.2.2.2.1, h.2.2.2.2.2.2.1, hx.1, hx.2,
      h.2.2.2.2.2.2.2.2.2⟩
  have good : ∀ n, n < 8 → ({ ch with lastRaw := x.raw, lastNoise := x.noise, goodRun := n } :
      Channel).ValuesKept := fun n hn =>
    ⟨seen.1, seen.2.1, seen.2.2.1, hn, seen.2.2.2.2⟩
  unfold Channel.scanSample
  dsimp only
  split
  · split
    · unfold Channel.faultSample
      split
      · rename_i hf
        exact ⟨seen.1, seen.2.1, hf, seen.2.2.2⟩
      · exact seen.enterFault
    · exact seen.noisySample c x.slot
    · exact seen.cleanSample hv c x.slot hx.1
  · split
    · unfold Channel.sampleInFault
      split
      · exact good 0 (by omega)
      all_goals
        split
        · rename_i hg
          exact good _ hg
        · exact good 0 (by omega)
    · exact h

/-- The max-on expiry (R59). -/
theorem Channel.ValuesKept.maxOnExpire {ch : Channel} (h : ch.ValuesKept) :
    ch.maxOnExpire.ValuesKept := h.rebaseline.untimed .idle 0

/-! ## Calibration -/

/-- A job that fails without FAULT (R74). -/
theorem Channel.ValuesKept.calibrationFails {ch : Channel} (h : ch.ValuesKept) :
    ch.calibrationFails.ValuesKept :=
  ⟨h.discardBaselines.1, Nat.zero_le _, Nat.zero_lt_succ _, h.2.2.2.1, Nat.zero_le _,
    Nat.zero_le _, h.2.2.2.2.2.2.1, h.2.2.2.2.2.2.2.1, h.2.2.2.2.2.2.2.2.1, forall_none⟩

/-- A job that is created (R64). -/
theorem Channel.ValuesKept.enterCalibration {ch : Channel} (h : ch.ValuesKept) :
    ch.enterCalibration.ValuesKept :=
  ⟨h.discardBaselines.1, h.2.1, h.2.2.1, Nat.zero_lt_succ _, h.2.2.2.2.1, h.2.2.2.2.2.1,
    forall_none, h.2.2.2.2.2.2.2.1, h.2.2.2.2.2.2.2.2.1, forall_none⟩

/-- What a step of a job leaves, of a job and a record in range (R69 to R76). -/
def JobStep.InRange : JobStep → Prop
  | .goesOn j ch => j.ValuesKept ∧ ch.ValuesKept
  | .ends _ ch _ => ch.ValuesKept

theorem Slot.filledFrom_inRange (sl : Slot) {sum : Nat} (h : sum ≤ 16383 * 8) :
    (sl.filledFrom sum).InRange := by
  unfold Slot.filledFrom
  refine ⟨fun b hb => ?_, fun f hf => ?_⟩
  · cases hb
    omega
  · cases hf
    omega

/-- A CLEAN sample in SEARCH (R70, R72). -/
theorem Job.searchClean_inRange {j : Job} {ch : Channel} (hj : j.ValuesKept) (h : ch.ValuesKept)
    (raw : Nat) : (j.searchClean ch raw).InRange := by
  unfold Job.searchClean
  dsimp only
  generalize (if raw < ch.config.target then j.mid + 1 else j.lo) = lo
  generalize (if raw < ch.config.target then j.hi else j.mid) = hi
  split
  · exact ⟨⟨Nat.zero_lt_succ _, Nat.zero_le _, Nat.zero_lt_succ _, hj.2.2.2⟩, h⟩
  · exact ⟨hj, h⟩

/-- An accepted sample (R69 to R76). -/
theorem Job.accept_inRange {j : Job} {ch : Channel} {x : Sample} (hj : j.ValuesKept)
    (h : ch.ValuesKept) (hx : x.InRange) (c : ChannelNo) : (j.accept c ch x).InRange := by
  obtain ⟨h1, h2, h3, h4⟩ := hj
  have hraw : x.raw ≤ 16383 := hx.1
  unfold Job.accept
  split
  · split
    · rename_i hf
      exact ⟨⟨h1, h2, h3, hf⟩, h⟩
    · exact h.enterFault
  · unfold Job.noisy
    split
    · rename_i hn
      exact ⟨⟨h1, h2, hn, Nat.zero_lt_succ _⟩, h⟩
    · exact h.calibrationFails
  · split
    · exact Job.searchClean_inRange (j := { j with faultRun := 0 }) ⟨h1, h2, h3, Nat.zero_lt_succ _⟩ h x.raw
    · unfold Job.acquireClean
      dsimp only
      split
      · rename_i hc
        exact ⟨⟨hc, by dsimp only; omega, h3, Nat.zero_lt_succ _⟩, h⟩
      · have filled : (ch.modifySlot j.acquireSlot fun sl => sl.filledFrom (j.sum + x.raw)).ValuesKept :=
          h.modifySlot _ fun sl _ => sl.filledFrom_inRange (by omega)
        split
        · exact ⟨⟨Nat.zero_lt_succ _, Nat.zero_le _, Nat.zero_lt_succ _, Nat.zero_lt_succ _⟩, filled⟩
        · refine ⟨fun sl' hsl' => ?_, Nat.zero_le _, Nat.zero_lt_succ _, Nat.zero_lt_succ _,
            Nat.zero_le _, Nat.zero_le _, forall_none, filled.2.2.2.2.2.2.2.1,
            filled.2.2.2.2.2.2.2.2.1, forall_none⟩
          obtain ⟨sl, hsl, rfl⟩ := List.mem_map.1 hsl'
          exact filled.1 sl hsl

/-! ## SET_CHANNEL and the tick -/

/-- A SET_CHANNEL (R30 to R33). -/
theorem Channel.ValuesKept.configure {ch : Channel} (h : ch.ValuesKept) (g : ChannelConfig) :
    (ch.configure g).ValuesKept := by
  unfold Channel.configure
  split
  · refine ⟨fun sl' hsl' => ?_, Nat.zero_le _, Nat.zero_lt_succ _, Nat.zero_lt_succ _, Nat.zero_le _,
      Nat.zero_le _, forall_none, h.2.2.2.2.2.2.2.1, h.2.2.2.2.2.2.2.2.1,
      forall_none⟩
    unfold Channel.reconfigure Channel.slotsFor buildSlots at hsl'
    dsimp only at hsl'
    split at hsl' <;> obtain ⟨sl, -, rfl⟩ := List.mem_map.1 hsl'
    · exact sl.emptied_inRange
    · exact ⟨forall_none, forall_none⟩
  · split <;> exact h

/-- The tick at a record (R25). -/
theorem Channel.ValuesKept.tick {ch : Channel} (h : ch.ValuesKept) :
    ({ ch with maxOn := ch.maxOn.tick } : Channel).ValuesKept := by
  refine ⟨h.1, h.2.1, h.2.2.1, h.2.2.2.1, h.2.2.2.2.1, h.2.2.2.2.2.1, fun ms hms => ?_,
    h.2.2.2.2.2.2.2⟩
  obtain ⟨n, hn, rfl⟩ := Option.map_eq_some_iff.1 hms
  have := h.2.2.2.2.2.2.1 n hn
  split <;> omega

end Sys2Proof.Machine
end

