-- ==== Sys2Proof/Laws/Moves.lean ====
section
/-! SUPPORT. What the blocks can do within a claim. Apart from opening a pending entry and answering a
request, everything a command does to the state is a chain of a few kinds of move, each with what
the rules promise of it; a property that every move keeps is kept by every operation named here. -/

namespace Sys2Proof.Machine

/-- An event that a producer offers: every event but READY and OVERRUN, which the queue makes. -/
def Body.isRaised : Body → Bool
  | .press _ _ _ | .release _ _ | .slide _ _ | .fault _ _ | .noise _ _ _ | .recal _ _ => true
  | .mode _ _ | .link _ _ => true
  | .ready _ _ _ | .reply _ _ _ | .complete _ _ _ | .overrun _ => false

/-- The two records are in CALIBRATING together. -/
def sameCalibrating (ch ch' : Channel) : Prop := ch'.state = .calibrating ↔ ch.state = .calibrating

/-- The scheduler keeps its settings, and its lists hold work for the owning engines alone. -/
def Scheduler.Follows (d d' : Scheduler) : Prop :=
  d'.scanList = d.scanList ∧ d'.activePeriod = d.activePeriod ∧ d'.dozePeriod = d.dozePeriod
    ∧ d'.idleTime = d.idleTime
    ∧ ∀ cy', d'.cycle = some cy' → ∀ e, ∀ item ∈ cy'.lists.get e,
      engineOf item.channel = e ∨ ∃ cy, d.cycle = some cy ∧ item ∈ cy.lists.get e

/-- One move of a block. -/
inductive Move : State → State → Prop
  | post (s : State) (b : Body) (h : b.isRaised = true) : Move s (s.post b)
  | sched (s : State) (f : Scheduler → Scheduler) (h : s.sched.Follows (f s.sched)) :
      Move s (s.withSched f)
  | freed (s : State) (e : EngineId) : Move s (s.setEngine e .idle)
  | taken (s : State) (e : EngineId) (cy : Cycle) (item : WorkItem) (rest : List WorkItem)
      (r : BurstRecord) (hcy : s.sched.cycle = some cy) (h : ∀ x ∈ rest, x ∈ cy.lists.get e)
      (hi : item ∈ cy.lists.get e) (hr : r.channel = item.channel) :
      Move s ((s.setList e rest).dispatch e r)
  | abandon (s : State) : Move s s.abandonBursts
  | drawn (s : State) (n : Nat) : Move s { s with freeCount := n }
  | channel (s : State) (c : ChannelNo) (ch : Channel) (h : (s.chan c).state ≠ .calibrating)
      (h' : ch.state ≠ .calibrating) (hk : channelKept (s.chan c) none → channelKept ch none)
      (hv : s.CountsKept → channelKept (s.chan c) none → (s.chan c).ValuesKept → ch.ValuesKept) :
      Move s (s.setChan c ch)
  | channels (s : State) (f : ChannelNo → Channel → Channel)
      (h : ∀ c, sameCalibrating (s.chan c) (f c (s.chan c)))
      (hk : ∀ c j, channelKept (s.chan c) j → channelKept (f c (s.chan c)) j)
      (hv : ∀ c, (s.chan c).ValuesKept → (f c (s.chan c)).ValuesKept) :
      Move s (s.mapChannels f)
  | keys (s : State) (f : KeyNo → Option Key)
      (h : ∀ k, (f k).map Key.channels = (s.key k).map Key.channels)
      (hg : s.GroupsExclusive → (s.mapKeys f).GroupsExclusive) : Move s (s.mapKeys f)
  | create (s : State) (c : ChannelNo) (h : s.wantsAutoJob c = true) :
      Move s (s.createJob c .automatic)
  | advance (s : State) (c : ChannelNo) (j j' : Job) (ch : Channel) (h : s.job c = some j)
      (ho : j'.origin = j.origin) (hs : sameCalibrating (s.chan c) ch)
      (hk : channelKept (s.chan c) (some j) → channelKept ch (some j'))
      (hv : s.CountsKept → j.ValuesKept → (s.chan c).ValuesKept → j'.ValuesKept ∧ ch.ValuesKept) :
      Move s ((s.setChan c ch).setJob c (some j'))
  | ended (s : State) (c : ChannelNo) (j : Job) (o : CalOutcome) (ch : Channel) (events : List Body)
      (status : Option Status) (h : s.job c = some j) (hs : ch.state ≠ .calibrating)
      (he : ∀ b ∈ events, b.isRaised = true)
      (hk : channelKept (s.chan c) (some j) → channelKept ch none)
      (hv : s.CountsKept → j.ValuesKept → (s.chan c).ValuesKept → ch.ValuesKept) :
      Move s ((s.endJob c j o ch events).closeEntryOf j.origin status)
  | measured (s : State) (e : PendingEntry) (c : ChannelNo) (slot count : Nat)
      (results results' : List MeasureResult) (h : e ∈ s.table)
      (hw : e.work = .measure c slot count results) :
      Move s
        { s with table := s.table.replace e { e with work := .measure c slot count results' } }
  | completed (s : State) (e : PendingEntry) (status : Status) (h : e ∈ s.table)
      (hw : e.work.measured.isSome = true) : Move s (s.completeEntry e status)
  | cancelled (s : State) (e : PendingEntry) (subjects : List ChannelNo) (results : List CalResult)
      (h : s.entryOfTag e.tag = some e) (hw : e.work = .calibrate subjects results) :
      Move s (s.cancelCalibrate e.tag)

/-- A chain of moves. -/
def Moves : State → State → Prop := Relation.ReflTransGen Move

theorem Moves.refl (s : State) : Moves s s := Relation.ReflTransGen.refl

theorem Moves.trans {s t u : State} (h : Moves s t) (h' : Moves t u) : Moves s u :=
  Relation.ReflTransGen.trans h h'

theorem Move.moves {s t : State} (h : Move s t) : Moves s t := Relation.ReflTransGen.single h

/-- A property that every move keeps is kept by every chain of moves. -/
theorem Moves.keeps {p : State → Prop} (step : ∀ s t, Move s t → p s → p t) {s t : State}
    (h : Moves s t) (hp : p s) : p t := by
  induction h with
  | refl => exact hp
  | tail _ hm ih => exact step _ _ hm ih

/-! ## The scheduler -/

theorem Scheduler.Follows.of_cycle {d d' : Scheduler} (h1 : d'.scanList = d.scanList)
    (h2 : d'.activePeriod = d.activePeriod) (h3 : d'.dozePeriod = d.dozePeriod)
    (h4 : d'.idleTime = d.idleTime)
    (h5 : ∀ cy', d'.cycle = some cy' → ∃ cy, d.cycle = some cy ∧ cy'.lists = cy.lists) :
    d.Follows d' := by
  refine ⟨h1, h2, h3, h4, fun cy' h e item hi => .inr ?_⟩
  obtain ⟨cy, hc, hl⟩ := h5 cy' h
  exact ⟨cy, hc, hl ▸ hi⟩

theorem Moves.withSched (s : State) (f : Scheduler → Scheduler) (h : s.sched.Follows (f s.sched)) :
    Moves s (s.withSched f) := (Move.sched s f h).moves

theorem Moves.setPeriod (s : State) (t : Timer) : Moves s (s.setPeriod t) :=
  .withSched s _ (.of_cycle rfl rfl rfl rfl fun cy h => ⟨cy, h, rfl⟩)

theorem Moves.setInactivity (s : State) (t : InactivityTimer) : Moves s (s.setInactivity t) :=
  .withSched s _ (.of_cycle rfl rfl rfl rfl fun cy h => ⟨cy, h, rfl⟩)

theorem Moves.setQuiet (s : State) (q : Bool) : Moves s (s.setQuiet q) :=
  .withSched s _ (.of_cycle rfl rfl rfl rfl fun cy h => ⟨cy, h, rfl⟩)

theorem Moves.countCycle (s : State) : Moves s s.countCycle :=
  .withSched s _ (.of_cycle rfl rfl rfl rfl fun cy h => ⟨cy, h, rfl⟩)

theorem Moves.startInactivity (s : State) : Moves s s.startInactivity := .setInactivity s _

theorem Moves.restartDozePeriod (s : State) : Moves s s.restartDozePeriod := .setPeriod s _

theorem Moves.endOfCycle (s : State) : Moves s (s.setCycle none) :=
  .withSched s _ (.of_cycle rfl rfl rfl rfl fun _ h => nomatch h)

theorem Moves.mapCycle (s : State) (f : Cycle → Cycle) (h : ∀ cy, (f cy).lists = cy.lists) :
    Moves s (s.setCycle (s.sched.cycle.map f)) := by
  refine .withSched s _ (.of_cycle rfl rfl rfl rfl fun cy' h' => ?_)
  obtain ⟨cy, hc, rfl⟩ := Option.map_eq_some_iff.1 h'
  exact ⟨cy, hc, h cy⟩

theorem Moves.clearMarks (s : State) : Moves s s.clearMarks := .mapCycle s _ fun _ => rfl

theorem Moves.oweStart (s : State) : Moves s s.oweStart := .mapCycle s _ fun _ => rfl

theorem Moves.post (s : State) (b : Body) (h : b.isRaised = true) : Moves s (s.post b) :=
  (Move.post s b h).moves

theorem Moves.postAll (s : State) (bs : List Body) (h : ∀ b ∈ bs, b.isRaised = true) :
    Moves s (s.postAll bs) := by
  induction bs generalizing s with
  | nil => exact .refl s
  | cons b rest ih =>
    exact (Moves.post s b (h b (by simp))).trans (ih (s.post b) fun x hx => h x (by simp [hx]))

theorem Moves.changeMode (s : State) (m : Mode) (cause : ModeCause) :
    Moves s (s.changeMode m cause) :=
  (Moves.withSched s _ (.of_cycle rfl rfl rfl rfl fun cy h => ⟨cy, h, rfl⟩)).trans (.post _ _ rfl)

theorem State.judgeItem_channel {s : State} {item : WorkItem} {r : BurstRecord}
    (h : s.judgeItem item = some r) : r.channel = item.channel := by
  unfold State.judgeItem at h
  have cal : ∀ (ch : Channel) (c : ChannelNo) (j : Job), (ch.calBurst c j).channel = c := by
    intro ch c j
    unfold Channel.calBurst
    split <;> rfl
  split at h
  · split at h
    · cases h; rfl
    · split at h
      · obtain ⟨j, -, rfl⟩ := Option.map_eq_some_iff.1 h
        exact cal _ _ _
      · cases h
  · split at h
    · split at h
      · cases h; exact cal _ _ _
      · cases h
    · cases h
  · split at h
    · split at h
      · split at h
        · cases h; rfl
        · cases h
      · cases h
    · cases h

theorem Moves.setList (s : State) (e : EngineId) (l : List WorkItem)
    (h : ∀ cy, s.sched.cycle = some cy → ∀ x ∈ l, x ∈ cy.lists.get e) : Moves s (s.setList e l) := by
  refine Moves.withSched s (fun d => { d with cycle := s.sched.cycle.map fun cy =>
    { cy with lists := cy.lists.set e l } }) ⟨rfl, rfl, rfl, rfl, fun cy' h' e' item hi => .inr ?_⟩
  obtain ⟨cy, hc, rfl⟩ := Option.map_eq_some_iff.1 h'
  refine ⟨cy, hc, ?_⟩
  by_cases he : e' = e
  · subst he
    rw [PerEngine.get_set_self] at hi
    exact h cy hc item hi
  · rwa [PerEngine.get_set_ne _ _ he] at hi

theorem Moves.offerList (s : State) (e : EngineId) (l : List WorkItem) (cy : Cycle)
    (hcy : s.sched.cycle = some cy) (h : ∀ x ∈ l, x ∈ cy.lists.get e) :
    Moves s (s.offerList e l) := by
  induction l with
  | nil => exact .setList s e [] fun _ _ _ hx => nomatch hx
  | cons item rest ih =>
    have hrest : ∀ x ∈ rest, x ∈ cy.lists.get e := fun x hx => h x (by simp [hx])
    unfold State.offerList
    split
    · rename_i r hr
      exact (Move.taken s e cy item rest r hcy hrest (h item (by simp))
        (State.judgeItem_channel hr)).moves
    · exact ih hrest

theorem Moves.offer (s : State) (e : EngineId) : Moves s (s.offer e) := by
  unfold State.offer
  split
  · rename_i cy hcy
    split
    · exact .offerList s e _ cy hcy fun _ hx => hx
    · exact .refl s
  · exact .refl s

/-- An engine's list, as it is built, holds work for its own channels alone (R1). -/
theorem State.engineOf_of_mem_buildList {s : State} {k : CycleKind} {e : EngineId} {item : WorkItem}
    (h : item ∈ s.buildList k e) : engineOf item.channel = e := by
  have cal : ∀ {c : ChannelNo} {i : WorkItem}, s.calItem c = some i → i.channel = c := by
    intro c i hi
    unfold State.calItem at hi
    split at hi
    · obtain ⟨j, -, rfl⟩ := Option.map_eq_some_iff.1 hi
      rfl
    · cases hi
  simp only [State.buildList, List.mem_append, State.scanPart, State.calPart, State.measurePart,
    List.mem_filterMap, List.mem_filter] at h
  rcases h with (⟨en, ⟨-, he⟩, hi⟩ | ⟨c, ⟨-, hc⟩, hi⟩) | ⟨p, -, hi⟩
  · have : item.channel = en.channel := by
      unfold State.scanItem at hi
      split at hi
      · cases hi; rfl
      · exact cal hi
    rw [this]
    exact beq_iff_eq.1 he
  · rw [cal hi]
    exact beq_iff_eq.1 (Bool.and_eq_true_iff.1 hc).1
  · split at hi
    · split at hi
      · cases hi
        rename_i h
        exact h
      · cases hi
    · cases hi

theorem Moves.beginCycle (s : State) (k : CycleKind) : Moves s (s.beginCycle k) := by
  refine (Moves.withSched s _ ⟨rfl, rfl, rfl, rfl, fun cy' h' e item hi => .inl ?_⟩).trans
    ((((Moves.offer _ .a).trans (.offer _ .b)).trans (.offer _ .c)).trans (.offer _ .d))
  cases h'
  cases e <;> exact State.engineOf_of_mem_buildList hi


/-! ## The key evaluator -/

/-- What a key that stays PRESSED keeps. -/
theorem Key.slides_cases (r : Key) (k : KeyNo) (look : ChannelNo → ChannelCopy) :
    (r.slides k look = (r, none))
      ∨ ∃ p, r.slides k look = ({ r with lastPosition := some p }, some (.slide k p)) := by
  unfold Key.slides
  split
  · split
    · exact .inr ⟨_, rfl⟩
    · exact .inl rfl
  · exact .inl rfl

/-- What the move of a key keeps, and when it leaves the key PRESSED. -/
theorem Key.move_cases (keys : KeyNo → Option Key) (look : ChannelNo → ChannelCopy) (k : KeyNo)
    (r : Key) :
    (Key.move keys look k r).1.channels = r.channels
      ∧ (Key.move keys look k r).1.group = r.group
      ∧ ((Key.move keys look k r).1.state = .pressed ↔ r.candidate look = true
        ∧ (r.state = .pressed ∨ mayPress keys look k r = true))
      ∧ ∀ b, (Key.move keys look k r).2 = some b → b.isRaised = true := by
  unfold Key.move
  cases hs : r.state <;> cases hc : r.candidate look <;> simp only []
  · simp [hs]
  · split <;> rename_i h
    · simp [h, Body.isRaised]
    · simp [hs, h]
  · simp [Body.isRaised]
  · rcases r.slides_cases k look with h | ⟨p, h⟩ <;> simp [h, hs, Body.isRaised]

theorem groupsExclusive_keyAfter (s : State) (look : ChannelNo → ChannelCopy)
    (h : s.GroupsExclusive) : (s.mapKeys (keyAfter s.key look)).GroupsExclusive := by
  intro k k' r r' g hk hk' hg hg' hp hp'
  simp only [State.key_mapKeys, keyAfter, Option.map_eq_some_iff] at hk hk'
  obtain ⟨a, ha, rfl⟩ := hk
  obtain ⟨b, hb, rfl⟩ := hk'
  obtain ⟨-, hag, hap, -⟩ := Key.move_cases s.key look k a
  obtain ⟨-, hbg, hbp, -⟩ := Key.move_cases s.key look k' b
  rw [hag] at hg
  rw [hbg] at hg'
  obtain ⟨hac, hap⟩ := hap.1 hp
  obtain ⟨hbc, hbp⟩ := hbp.1 hp'
  have held : ∀ {k : KeyNo} {r : Key}, s.key k = some r → r.group = some g → r.state = .pressed →
      r.candidate look = true → groupHeld s.key look g = true := by
    intro k r hk hg hp hc
    exact List.any_eq_true.2 ⟨k, by simp [allKeys], by simp [hk, hg, hp, hc]⟩
  have may : ∀ {k : KeyNo} {r : Key}, r.group = some g → mayPress s.key look k r = true →
      groupHeld s.key look g = false ∧ isStrongest s.key look g k r = true := by
    intro k r hg hm
    simpa [mayPress, hg] using hm
  have wins : ∀ {k k' : KeyNo} {r r' : Key}, isStrongest s.key look g k r = true →
      s.key k' = some r' → r'.group = some g → r'.candidate look = true →
      r'.strength look < r.strength look ∨ r'.strength look = r.strength look ∧ k ≤ k' := by
    intro k k' r r' hi hk' hg' hc'
    have := List.all_eq_true.1 hi k' (by simp [allKeys])
    simpa [hk', hg', hc'] using this
  rcases hap with hap | hap <;> rcases hbp with hbp | hbp
  · exact h k k' a b g ha hb hg hg' hap hbp
  · have := (may hg' hbp).1
    rw [held ha hg hap hac] at this
    cases this
  · have := (may hg hap).1
    rw [held hb hg' hbp hbc] at this
    cases this
  · have h1 := wins (may hg hap).2 hb hg' hbc
    have h2 := wins (may hg' hbp).2 ha hg hac
    rcases h1 with h1 | ⟨e1, h1⟩ <;> rcases h2 with h2 | ⟨e2, h2⟩
    · omega
    · omega
    · omega
    · exact le_antisymm h1 h2

/-- A record whose release note alone differs is kept as before. -/
theorem Moves.clearNotes (s : State) : Moves s s.clearNotes := by
  unfold State.clearNotes
  exact (Move.channels s (fun _ ch => { ch with note := .none }) (fun _ => Iff.rfl)
    (fun _ _ h => h) fun _ h => h).moves

theorem keyEvents_raised {keys : KeyNo → Option Key} {look : ChannelNo → ChannelCopy} {b : Body}
    (h : b ∈ keyEvents keys look) : b.isRaised = true := by
  have : b ∈ allKeys.filterMap (keyEvent keys look) := by
    simp only [keyEvents, List.mem_append, List.mem_filter] at h
    rcases h with (h | h) | h <;> exact h.1
  obtain ⟨k, -, hk⟩ := List.mem_filterMap.1 this
  obtain ⟨r, -, hr⟩ := Option.bind_eq_some_iff.1 hk
  exact (Key.move_cases keys look k r).2.2.2 b hr

theorem State.clearNotes_key (s : State) : s.clearNotes.key = s.key := by
  funext k
  simp only [State.key, State.clearNotes, State.mapChannels_keys]

theorem Moves.evaluateKeys (s : State) : Moves s s.evaluateKeys := by
  have hk := s.clearNotes_key
  show Moves s ((s.clearNotes.mapKeys (keyAfter s.key fun c => (s.chan c).copy)).postAll
    (keyEvents s.key fun c => (s.chan c).copy))
  refine (Moves.clearNotes s).trans (.trans
    (Move.keys s.clearNotes (keyAfter s.key fun c => (s.chan c).copy) (fun k => ?_) fun h => ?_).moves
    (.postAll _ _ fun b hb => keyEvents_raised hb))
  · rw [hk]
    unfold keyAfter
    cases s.key k with
    | none => rfl
    | some r => exact congrArg some (Key.move_cases s.key _ k r).1
  · rw [← hk]
    exact groupsExclusive_keyAfter _ _ h

theorem Moves.stopKeys (s : State) : Moves s s.stopKeys := by
  unfold State.stopKeys
  refine .trans (Move.keys s (fun k => (s.key k).map Key.stop) (fun k => ?_) fun h => ?_).moves
    (.postAll _ _ fun b hb => ?_)
  · cases s.key k <;> rfl
  · intro k k' r r' g hk hk' hg hg' hp hp'
    simp only [State.key_mapKeys, Option.map_eq_some_iff] at hk
    obtain ⟨a, -, rfl⟩ := hk
    cases hp
  · obtain ⟨k, -, rfl⟩ := List.mem_map.1 hb
    rfl

/-! ## Cycles and modes -/

/-- A record stays as the rules keep it when every slot keeps its step and what it holds. -/
theorem channelKept.mapSlots {ch : Channel} {j : Option Job} (h : channelKept ch j) (g : Slot → Slot)
    (hs : ∀ sl, (g sl).step = sl.step) (hb : ∀ sl, (g sl).baseline.isSome = sl.baseline.isSome)
    (hf : ∀ sl, (g sl).filtered.isSome = sl.filtered.isSome) :
    channelKept { ch with slots := ch.slots.map g } j := by
  obtain ⟨hv, ⟨hm, h1, h4, hc⟩, hsl, hj, hd, ht, hjob, ho⟩ := h
  have unfilled : ∀ sl : Slot, sl.Unfilled → (g sl).Unfilled := by
    intro sl ⟨h1, h2⟩
    have b := hb sl
    have f := hf sl
    rw [h1] at b
    rw [h2] at f
    exact ⟨by simpa using b, by simpa using f⟩
  have filled : ∀ sl : Slot, sl.Filled → (g sl).Filled := by
    intro sl ⟨h1, h2⟩
    exact ⟨by rw [hb, h1], by rw [hf, h2]⟩
  refine ⟨hv, ⟨?_, h1, h4, hc⟩, ?_, hj, hd, ht, hjob, ho⟩
  · rw [← hm]
    simp [Function.comp_def, hs]
  · unfold slotsFollowState at hsl ⊢
    cases hst : ch.state <;> simp only [hst] at hsl ⊢
    all_goals first
      | (intro sl' hsl'
         obtain ⟨sl, hm, rfl⟩ := List.mem_map.1 hsl'
         first | exact unfilled sl (hsl sl hm) | exact filled sl (hsl sl hm))
      | (intro job hjob ha
         refine ⟨(hsl job hjob ha).1, fun sl' hsl' => ?_⟩
         rw [← List.map_take] at hsl'
         obtain ⟨sl, hm, rfl⟩ := List.mem_map.1 hsl'
         exact filled sl ((hsl job hjob ha).2 sl hm))

theorem channelKept.setReseeds {ch : Channel} {j : Option Job} (h : channelKept ch j) :
    channelKept ch.setReseeds j :=
  h.mapSlots _ (fun _ => rfl) (fun _ => rfl) fun _ => rfl

theorem Moves.reseedAll (s : State) : Moves s s.reseedAll := by
  unfold State.reseedAll
  exact (Move.channels s (fun _ ch => ch.setReseeds) (fun _ => Iff.rfl) (fun _ _ h => h.setReseeds)
    fun _ h => h.setReseeds).moves

theorem Moves.reseedNonDoze (s : State) : Moves s s.reseedNonDoze := by
  unfold State.reseedNonDoze
  refine (Move.channels s (fun c ch => if s.isNonDozeEntry c then ch.setReseeds else ch)
    (fun c => ?_) (fun c j h => ?_) fun c h => ?_).moves
  · split <;> exact Iff.rfl
  all_goals
    split
    · exact h.setReseeds
    · exact h

theorem Moves.leaveActive (s : State) (cause : ModeCause) : Moves s (s.leaveActive cause) :=
  ((Moves.changeMode s .doze cause).trans (.setInactivity _ _)).trans (.setQuiet _ _)

theorem Moves.activeToDoze (s : State) (cause : ModeCause) : Moves s (s.activeToDoze cause) := by
  unfold State.activeToDoze
  dsimp only
  split
  · exact ((Moves.leaveActive s cause).trans (.setPeriod _ _)).trans (.clearMarks _)
  · exact (Moves.leaveActive s cause).trans (.restartDozePeriod _)

theorem Moves.activeToDozeAtEnd (s : State) : Moves s s.activeToDozeAtEnd :=
  ((Moves.leaveActive s _).trans (.clearMarks _)).trans (.restartDozePeriod _)

theorem Moves.judgeQuiet (s : State) : Moves s s.judgeQuiet := by
  unfold State.judgeQuiet
  split
  · split
    · exact (Moves.setQuiet s _).trans (.activeToDozeAtEnd _)
    · exact .setQuiet s _
  · exact (Moves.startInactivity s).trans (.setQuiet _ _)

theorem Moves.nextStart (s : State) (cy : Cycle) : Moves s (s.nextStart cy) := by
  unfold State.nextStart
  dsimp only
  split
  · exact (Moves.endOfCycle s).trans (.beginCycle _ _)
  · split
    · exact (Moves.endOfCycle s).trans (.restartDozePeriod _)
    · exact .endOfCycle s

theorem Moves.endScanCycle (s : State) (k : CycleKind) : Moves s (s.endScanCycle k) := by
  unfold State.endScanCycle
  have evaluated := (Moves.countCycle s).trans (.evaluateKeys _)
  dsimp only
  split <;> split
  · exact (evaluated.trans (.judgeQuiet _)).trans (.nextStart _ _)
  · exact evaluated.trans (.nextStart _ _)
  · exact evaluated.trans (.judgeQuiet _)
  · exact evaluated

theorem Moves.endServiceCycle (s : State) : Moves s s.endServiceCycle := by
  unfold State.endServiceCycle
  have ended := Moves.endOfCycle s
  dsimp only
  split
  · split
    · exact ended.trans (.beginCycle _ _)
    · exact ended.trans (.changeMode _ _ _)
  · exact ended.trans (.beginCycle _ _)
  · exact ended.trans (.restartDozePeriod _)
  · exact ended

theorem Moves.endCycle (s : State) : Moves s s.endCycle := by
  unfold State.endCycle
  split
  · split
    · exact .endServiceCycle s
    · exact .endScanCycle s _
    · exact .endScanCycle s _
  · exact .refl s

theorem Moves.finishCycles (n : Nat) (s : State) : Moves s (State.finishCycles n s) := by
  induction n generalizing s with
  | zero => exact .refl s
  | succ n ih =>
    unfold State.finishCycles
    split
    · exact (Moves.endCycle s).trans (ih _)
    · exact .refl s

theorem Moves.settleCycle (s : State) : Moves s s.settleCycle := .finishCycles 3 s

theorem Moves.startCycle (s : State) (k : CycleKind) : Moves s (s.startCycle k) :=
  (Moves.beginCycle s k).trans (.settleCycle _)

theorem Moves.dozeToActive (s : State) (cause : ModeCause) : Moves s (s.dozeToActive cause) := by
  unfold State.dozeToActive
  have entered := (((Moves.changeMode s .active cause).trans (.reseedNonDoze _)).trans
    (.startInactivity _)).trans (.setQuiet _ false)
  dsimp only
  split
  · exact (entered.trans (.setPeriod _ _)).trans (.oweStart _)
  · exact entered.trans (.startCycle _ _)

theorem Moves.workSignal (s : State) : Moves s s.workSignal := by
  unfold State.workSignal
  split
  · exact .dozeToActive s _
  · exact .setQuiet s _
  · exact .refl s
  · exact .refl s

theorem Moves.touchSignal (s : State) (c : ChannelNo) : Moves s (s.touchSignal c) := by
  unfold State.touchSignal
  split
  · exact .dozeToActive s _
  · exact .refl s

/-! ## Automatic jobs -/

theorem Moves.autoJob (s : State) (c : ChannelNo) (h : s.wantsAutoJob c = true) :
    Moves s (s.autoJob c) :=
  (Move.create s c h).moves.trans (.workSignal _)

theorem Moves.autoJobAtFaultExit (s : State) (c : ChannelNo) : Moves s (s.autoJobAtFaultExit c) := by
  unfold State.autoJobAtFaultExit
  split
  · rename_i h
    exact .autoJob s c (Bool.and_eq_true_iff.1 h).1
  · exact .refl s

theorem Moves.autoJobIfScanned (s : State) (c : ChannelNo) : Moves s (s.autoJobIfScanned c) := by
  unfold State.autoJobIfScanned
  split
  · rename_i h
    exact .autoJob s c (Bool.and_eq_true_iff.1 (Bool.and_eq_true_iff.1 h).1).1
  · exact .refl s

/-- The creation of a job for one channel leaves what another channel wants. -/
theorem State.wantsAutoJob_createJob {s : State} {c d : ChannelNo} {o : JobOrigin} (h : d ≠ c) :
    (s.createJob c o).wantsAutoJob d = s.wantsAutoJob d := by
  simp only [State.wantsAutoJob, State.chan_createJob_ne s o h]
  rfl

theorem Moves.autoJobs (s : State) (cs : List ChannelNo) (hn : cs.Nodup)
    (h : ∀ c ∈ cs, s.wantsAutoJob c = true) : Moves s (s.autoJobs cs) := by
  induction cs generalizing s with
  | nil => exact .refl s
  | cons c rest ih =>
    obtain ⟨hc, hr⟩ := List.nodup_cons.1 hn
    refine (Move.create s c (h c (by simp))).moves.trans (ih _ hr fun d hd => ?_)
    rw [State.wantsAutoJob_createJob (by rintro rfl; exact hc hd)]
    exact h d (by simp [hd])

theorem Moves.autoJobs_wanted (s : State) : Moves s (s.autoJobs s.autoJobChannels) :=
  .autoJobs s _ ((List.nodup_finRange 24).filter _) fun _ hc =>
    (Bool.and_eq_true_iff.1 (List.mem_filter.1 hc).2).1

theorem Moves.startActive (s : State) : Moves s s.startActive := by
  unfold State.startActive
  have entered := ((((Moves.changeMode s .active .request).trans (.reseedAll _)).trans
    (.autoJobs_wanted _)).trans (.startInactivity _)).trans (.setQuiet _ false)
  dsimp only
  split
  · exact entered.trans (.oweStart _)
  · exact entered.trans (.startCycle _ _)

theorem Moves.startDoze (s : State) : Moves s s.startDoze := by
  unfold State.startDoze
  have entered := (((Moves.changeMode s .doze .request).trans (.reseedAll _)).trans
    (.autoJobs_wanted _)).trans (.restartDozePeriod _)
  dsimp only
  split
  · exact entered
  · exact entered.trans (.workSignal _)

theorem Moves.workTaken (s : State) : Moves s s.workTaken := by
  unfold State.workTaken
  split
  · exact (Moves.changeMode s _ _).trans (.startCycle _ _)
  · exact .workSignal s
  · exact .workSignal s
  · exact .workSignal s

/-! ## Samples at a channel record -/

theorem List.mem_of_mem_modify {α : Type} {l : List α} {i : Nat} {f : α → α} {x : α}
    (h : x ∈ l.modify i f) : x ∈ l ∨ ∃ y ∈ l, x = f y := by
  induction l generalizing i with
  | nil => cases i <;> cases h
  | cons a rest ih =>
    cases i with
    | zero =>
      rcases List.mem_cons.1 h with rfl | h
      · exact .inr ⟨a, by simp, rfl⟩
      · exact .inl (by simp [h])
    | succ i =>
      rcases List.mem_cons.1 h with rfl | h
      · exact .inl (by simp)
      · rcases ih h with h | ⟨y, hy, rfl⟩
        · exact .inl (by simp [h])
        · exact .inr ⟨y, by simp [hy], rfl⟩

theorem List.map_modify_eq {α β : Type} (l : List α) (i : Nat) (f : α → α) (g : α → β)
    (h : ∀ y, g (f y) = g y) : (l.modify i f).map g = l.map g := by
  induction l generalizing i with
  | nil => cases i <;> rfl
  | cons a rest ih => cases i <;> simp [h, ih]

/-- What a kept record without a job is in the detecting states. -/
structure Channel.Detects (ch : Channel) : Prop where
  detecting : ch.state.isDetecting = true
  valid : ch.config.valid = true
  slots : ch.SlotsMatch
  filled : ∀ sl ∈ ch.slots, sl.Filled
  debounce : ch.DebounceKept
  timer : ch.TimerKept
  enabled : ch.config.enabled = true

theorem Channel.OffKept.enabled {ch : Channel} (h : ch.OffKept) (hs : ch.state ≠ .off) :
    ch.config.enabled = true := by
  cases he : ch.config.enabled with
  | true => rfl
  | false => exact absurd (h.2 he) hs

theorem Channel.OffKept.enabled_of_detecting {ch : Channel} (h : ch.OffKept)
    (hd : ch.state.isDetecting = true) : ch.config.enabled = true :=
  h.enabled fun e => by rw [e] at hd; cases hd

theorem Channel.OffKept.of_enabled {ch : Channel} (he : ch.config.enabled = true)
    (hs : ch.state ≠ .off) : ch.OffKept :=
  ⟨fun h => absurd h hs, fun h => by rw [he] at h; cases h⟩

theorem Channel.detects_of_kept {ch : Channel} {j : Option Job} (hd : ch.state.isDetecting = true)
    (h : channelKept ch j) : ch.Detects := by
  obtain ⟨hv, hs, hf, -, hdb, ht, -, ho⟩ := h
  refine ⟨hd, hv, hs, ?_, hdb, ht, ho.enabled_of_detecting hd⟩
  unfold slotsFollowState at hf
  cases hst : ch.state <;> simp only [hst] at hf hd
  all_goals first | exact hf | cases hd

theorem Channel.Detects.kept {ch : Channel} (h : ch.Detects) : channelKept ch none := by
  obtain ⟨hd, hv, hs, hf, hdb, ht, he⟩ := h
  refine ⟨hv, hs, ?_, ?_, hdb, ht, fun _ h => (nomatch h : False).elim,
    .of_enabled he fun e => by rw [e] at hd; cases hd⟩
  · unfold slotsFollowState
    cases hst : ch.state <;> simp only [hst] at hd ⊢
    all_goals first | exact hf | cases hd
  · unfold jobFollowsState
    cases hst : ch.state <;> simp only [hst] at hd ⊢
    all_goals first | rfl | cases hd

theorem Channel.Detects.not_calibrating {ch : Channel} (h : ch.Detects) :
    ch.state ≠ .calibrating := by
  intro e
  have := h.detecting
  rw [e] at this
  cases this

theorem ChannelConfig.valid_debounce {g : ChannelConfig} (h : g.valid = true) :
    g.pressDebounce ≤ 8 ∧ g.releaseDebounce ≤ 8 := by
  simp only [ChannelConfig.valid, inRange, Bool.and_eq_true, decide_eq_true_eq] at h
  omega

/-- The detection state machine keeps a detecting record so (R51, R52, R54). -/
theorem Channel.Detects.judge {ch : Channel} (h : ch.Detects) (d : Int) : (ch.judge d).Detects := by
  obtain ⟨hd, hv, hs, hf, ⟨h8, h0⟩, ht, he⟩ := h
  have hb := ChannelConfig.valid_debounce hv
  unfold Channel.judge
  cases hst : ch.state <;> simp only [hst] at hd ⊢
  all_goals first
    | (cases hd; done)
    | (repeat' split
       all_goals
        refine ⟨?_, hv, hs, hf, ⟨?_, ?_⟩, ?_, he⟩ <;>
          simp_all [Channel.touch, Channel.toIdle, Channel.TimerKept, ChannelState.isDetecting,
            ChannelState.isHeld] <;> omega)

/-- New slot records with the same steps, all filled. -/
theorem Channel.Detects.withSlots {ch : Channel} (h : ch.Detects) (slots : List Slot)
    (hs : slots.map Slot.step = ch.slots.map Slot.step) (hf : ∀ sl ∈ slots, sl.Filled) :
    ({ ch with slots := slots } : Channel).Detects :=
  ⟨h.detecting, h.valid, ⟨hs.trans h.slots.1, h.slots.2⟩, hf, h.debounce, h.timer, h.enabled⟩

theorem Channel.Detects.modifySlot {ch : Channel} (h : ch.Detects) (i : Nat) (f : Slot → Slot)
    (hs : ∀ sl, (f sl).step = sl.step) (hf : ∀ sl, sl.Filled → (f sl).Filled) :
    (ch.modifySlot i f).Detects := by
  refine h.withSlots _ (List.map_modify_eq _ _ _ _ hs) fun sl hsl => ?_
  rcases List.mem_of_mem_modify hsl with hsl | ⟨y, hy, rfl⟩
  · exact h.filled sl hsl
  · exact hf y (h.filled y hy)

theorem Channel.Detects.filterUpdate {ch : Channel} (h : ch.Detects) (i raw : Nat) :
    (ch.filterUpdate i raw).Detects :=
  h.modifySlot i _ (fun _ => rfl) fun _ hf => ⟨hf.1, rfl⟩

theorem Channel.Detects.rebaseline {ch : Channel} (h : ch.Detects) : ch.rebaseline.Detects := by
  have kept : ({ ch with driftCount := 0, negRun := 0 } : Channel).Detects :=
    ⟨h.detecting, h.valid, h.slots, h.filled, h.debounce, h.timer, h.enabled⟩
  unfold Channel.rebaseline
  split
  · split
    · refine kept.withSlots _ (by simp [Function.comp_def]) fun sl' hsl' => ?_
      obtain ⟨sl, hsl, rfl⟩ := List.mem_map.1 hsl'
      exact ⟨by simpa using (h.filled sl hsl).1, (h.filled sl hsl).2⟩
    · exact kept
  · exact kept

theorem Channel.Detects.driftStep {ch : Channel} (h : ch.Detects) : ch.driftStep.Detects := by
  refine h.modifySlot _ _ (fun sl => ?_) fun sl hf => ?_
  · split <;> rfl
  · split
    · exact ⟨rfl, hf.2⟩
    · exact hf

theorem Channel.Detects.drift {ch : Channel} (h : ch.Detects) : ch.drift.Detects := by
  unfold Channel.drift
  split
  · exact h
  · split
    · exact ⟨h.driftStep.detecting, h.driftStep.valid, h.driftStep.slots, h.driftStep.filled,
        h.driftStep.debounce, h.driftStep.timer, h.driftStep.enabled⟩
    · exact ⟨h.detecting, h.valid, h.slots, h.filled, h.debounce, h.timer, h.enabled⟩

theorem Channel.Detects.negative {ch : Channel} (h : ch.Detects) (c : ChannelNo) (d : Int) :
    (ch.negative c d).1.Detects := by
  have kept : ∀ n, ({ ch with negRun := n } : Channel).Detects := fun n =>
    ⟨h.detecting, h.valid, h.slots, h.filled, h.debounce, h.timer, h.enabled⟩
  unfold Channel.negative
  dsimp only
  generalize (if d ≤ -(ch.config.negThreshold : Int) then ch.negRun + 1 else 0) = run
  split
  · exact (kept _).rebaseline
  · exact kept _

theorem Channel.Detects.track {ch : Channel} (h : ch.Detects) (was : ChannelState) (c : ChannelNo)
    (d : Int) : (ch.track was c d).1.Detects := by
  unfold Channel.track
  split
  · split
    · exact h.drift.negative c d
    · exact ⟨h.detecting, h.valid, h.slots, h.filled, h.debounce, h.timer, h.enabled⟩
  · exact h

theorem Channel.Detects.cleanSample {ch : Channel} (h : ch.Detects) (c : ChannelNo) (i raw : Nat) :
    (ch.cleanSample c i raw).channel.Detects := by
  have off : (ch.noiseOff c i).1.Detects :=
    ⟨h.detecting, h.valid, h.slots, h.filled, h.debounce, h.timer, h.enabled⟩
  unfold Channel.cleanSample
  dsimp only
  have filtered := off.filterUpdate i raw
  split
  · exact filtered
  · rename_i d _
    have last : ({ (ch.noiseOff c i).1.filterUpdate i raw with lastDelta := some d } : Channel).Detects :=
      ⟨filtered.detecting, filtered.valid, filtered.slots, filtered.filled, filtered.debounce,
        filtered.timer, filtered.enabled⟩
    exact (last.judge d).track ch.state c d

theorem Channel.Detects.noisySample {ch : Channel} (h : ch.Detects) (c : ChannelNo) (i : Nat) :
    (ch.noisySample c i).channel.Detects := by
  have hop : ∀ n, (({ ch with faultRun := 0, noisyRun := n } : Channel).hop i).Detects := by
    intro n
    have kept : ({ ch with faultRun := 0, noisyRun := n } : Channel).Detects :=
      ⟨h.detecting, h.valid, h.slots, h.filled, h.debounce, h.timer, h.enabled⟩
    unfold Channel.hop
    dsimp only
    split
    · rename_i hl
      have m := kept.modifySlot ((i + 1) % ch.config.hopList.length)
        (fun sl => { sl with reseed := true }) (fun _ => rfl) fun _ hf => hf
      exact ⟨m.detecting, m.valid, ⟨m.slots.1, m.slots.2.1, m.slots.2.2.1,
        Nat.mod_lt _ (by omega)⟩, m.filled, m.debounce, m.timer, m.enabled⟩
    · exact kept
  unfold Channel.noisySample
  dsimp only
  split
  · exact ⟨(hop _).detecting, (hop _).valid, (hop _).slots, (hop _).filled, (hop _).debounce,
      (hop _).timer, (hop _).enabled⟩
  · exact hop _

/-- A record in FAULT, or one whose job has failed, holds nothing (R22). -/
theorem channelKept_emptied {ch : Channel} {j : Option Job} (h : channelKept ch j) {st : ChannelState}
    (hst : st = .fault ∨ st = .uncal) (hn : ch.state ≠ .off) {slots : List Slot}
    (hs : slots = ch.slots.map Slot.emptied) {after : Channel} (hc : after.config = ch.config)
    (hsl : after.slots = slots) (hcur : after.current < ch.config.hopList.length)
    (hstate : after.state = st) (hd : after.debounce = 0) (ht : after.maxOn = none) :
    channelKept after none := by
  obtain ⟨hv, ⟨hm, h1, h4, -⟩, -, -, -, -, -, ho⟩ := h
  have empty : ∀ sl ∈ after.slots, sl.Unfilled := by
    intro sl' hsl'
    rw [hsl, hs] at hsl'
    obtain ⟨sl, -, rfl⟩ := List.mem_map.1 hsl'
    exact ⟨rfl, rfl⟩
  refine ⟨hc ▸ hv, ⟨?_, hc ▸ h1, hc ▸ h4, hc ▸ hcur⟩, ?_, ?_, ?_, ?_, fun _ h => (nomatch h : False).elim,
    .of_enabled (hc ▸ ho.enabled hn) (by rcases hst with rfl | rfl <;> simp [hstate])⟩
  · rw [hsl, hs, hc, ← hm]
    simp [Slot.emptied, Function.comp_def]
  · unfold slotsFollowState
    rcases hst with rfl | rfl <;> simpa [hstate] using empty
  · unfold jobFollowsState
    rcases hst with rfl | rfl <;> simp [hstate]
  · exact ⟨by omega, fun _ _ => hd⟩
  · intro h
    simp [ht] at h

theorem channelKept.enterFault {ch : Channel} {j : Option Job} (h : channelKept ch j)
    (hn : ch.state ≠ .off) : channelKept ch.enterFault none :=
  channelKept_emptied h (.inl rfl) hn rfl rfl rfl h.2.1.2.2.2 rfl rfl rfl

theorem channelKept.sampleInFault {ch : Channel} (h : channelKept ch none) (hf : ch.state = .fault)
    (c : ChannelNo) (cls : SampleClass) :
    channelKept (ch.sampleInFault c cls).channel none := by
  obtain ⟨hv, hs, hsl, hj, hd, ht, hjob, ho⟩ := h
  have counted : ∀ n, channelKept { ch with goodRun := n } none := fun n =>
    ⟨hv, hs, hsl, hj, hd, ht, hjob, ho⟩
  have left : channelKept { ch with goodRun := 0, state := .uncal } none := by
    refine ⟨hv, hs, ?_, rfl, ⟨hd.1, fun _ _ => hd.2 (by simp [hf]) (by simp [hf])⟩, ?_, hjob,
      .of_enabled (ho.enabled (by simp [hf])) (by simp)⟩
    · unfold slotsFollowState at hsl ⊢
      simpa only [hf] using hsl
    · intro hm
      have := ht hm
      rw [hf] at this
      cases this
  unfold Channel.sampleInFault
  split
  · exact counted _
  all_goals
    split
    · exact counted _
    · exact left

/-- A SCAN sample keeps the record as the rules keep it (R38 to R58). -/
theorem channelKept.scanSample {ch : Channel} (h : channelKept ch none) (c : ChannelNo) (x : Sample) :
    channelKept (ch.scanSample c x).channel none := by
  have seen : channelKept { ch with lastRaw := x.raw, lastNoise := x.noise } none := h
  unfold Channel.scanSample
  dsimp only
  split
  · rename_i hd
    have dets : ({ ch with lastRaw := x.raw, lastNoise := x.noise } : Channel).Detects :=
      Channel.detects_of_kept hd seen
    split
    · unfold Channel.faultSample
      split
      · exact seen
      · exact seen.enterFault fun e => by rw [e] at hd; cases hd
    · exact (dets.noisySample c x.slot).kept
    · exact (dets.cleanSample c x.slot x.raw).kept
  · split
    · rename_i hf
      exact seen.sampleInFault hf c x.cls
    · exact h

/-! ## Samples at a job -/

theorem channelKept.calibrationFails {ch : Channel} {j : Job} (h : channelKept ch (some j)) :
    channelKept ch.calibrationFails none := by
  have hc : ch.state = .calibrating := by
    have := h.2.2.2.1
    unfold jobFollowsState at this
    simpa using this
  have ht : ch.maxOn = none := by
    cases hm : ch.maxOn with
    | none => rfl
    | some n =>
      have := h.2.2.2.2.2.1 (by simp [hm])
      rw [hc] at this
      cases this
  exact channelKept_emptied h (.inr rfl) (by simp [hc]) rfl rfl rfl h.2.1.2.2.2 rfl
    (h.2.2.2.2.1.2 (by simp [hc]) (by simp [hc])) ht

/-- The slots before the next acquire slot are filled once the acquire slot is (R73). -/
theorem filled_take_modify {l : List Slot} {k : Nat} {f : Slot → Slot}
    (h : ∀ sl ∈ l.take k, sl.Filled) (hf : ∀ sl, (f sl).Filled) :
    ∀ sl ∈ (l.modify k f).take (k + 1), sl.Filled := by
  induction l generalizing k with
  | nil => cases k <;> simp
  | cons a rest ih =>
    cases k with
    | zero => simpa using hf a
    | succ k =>
      intro sl hsl
      rcases List.mem_cons.1 (by simpa using hsl) with rfl | hsl
      · exact h sl (by simp)
      · exact ih (fun sl hsl => h sl (by simp [hsl])) sl hsl

/-- What a step of a job promises (R69 to R76). -/
def JobStep.Keeps (j : Job) (ch : Channel) : JobStep → Prop
  | .goesOn j' ch' =>
    j'.origin = j.origin ∧ j'.serial = j.serial ∧ ch'.state = ch.state
      ∧ (channelKept ch (some j) → channelKept ch' (some j'))
  | .ends _ ch' events =>
    ch'.state ≠ .calibrating ∧ (∀ b ∈ events, b.isRaised = true)
      ∧ (channelKept ch (some j) → channelKept ch' none)

theorem Job.searchClean_keeps (j : Job) (ch : Channel) (raw : Nat) (hp : j.phase = .search) :
    (j.searchClean ch raw).Keeps j ch := by
  unfold Job.searchClean
  dsimp only
  generalize hlo : (if raw < ch.config.target then j.mid + 1 else j.lo) = lo
  generalize hhi : (if raw < ch.config.target then j.hi else j.mid) = hi
  have bounds : j.SearchKept → 1 ≤ lo ∧ lo ≤ hi ∧ hi ≤ 64 := by
    rintro ⟨h1, h2, h3, h4⟩
    have := h4 hp
    subst hlo hhi
    unfold Job.mid
    split <;> omega
  split
  · rename_i he
    refine ⟨rfl, rfl, rfl, fun ⟨hv, hs, hsl, hj, hd, ht, hjob, ho⟩ => ?_⟩
    have b := bounds (hjob j rfl)
    refine ⟨?_, hs, ?_, hj, hd, ht, ?_, ho⟩
    · have : lo ≤ 64 := he ▸ b.2.2
      have := b.1
      simp only [ChannelConfig.valid, inRange, Bool.and_eq_true, decide_eq_true_eq] at hv ⊢
      tauto
    · have hc : ch.state = .calibrating := by
        unfold jobFollowsState at hj
        simpa using hj
      unfold slotsFollowState
      simp only [hc]
      rintro job ⟨⟩ -
      exact ⟨Nat.lt_of_lt_of_le Nat.zero_lt_one hs.2.1, by simp⟩
    · rintro job ⟨⟩
      exact ⟨b.1, b.2.1, b.2.2, fun h => nomatch h⟩
  · rename_i he
    refine ⟨rfl, rfl, rfl, fun ⟨hv, hs, hsl, hj, hd, ht, hjob, ho⟩ => ?_⟩
    have b := bounds (hjob j rfl)
    refine ⟨hv, hs, ?_, hj, hd, ht, ?_, ho⟩
    · unfold slotsFollowState at hsl ⊢
      cases hst : ch.state <;> simp only [hst] at hsl ⊢
      all_goals first
        | exact hsl
        | (rintro job ⟨⟩ h
           rw [show _ = JobPhase.search from hp] at h
           cases h)
    · rintro job ⟨⟩
      exact ⟨b.1, b.2.1, b.2.2, fun _ => Nat.lt_of_le_of_ne b.2.1 he⟩

theorem Job.acquireClean_keeps (j : Job) (ch : Channel) (raw : Nat) (hp : j.phase = .acquire) :
    (j.acquireClean ch raw).Keeps j ch := by
  have calibrating : channelKept ch (some j) → ch.state = .calibrating := by
    intro h
    have hj := h.2.2.2.1
    unfold jobFollowsState at hj
    simpa using hj
  have before : channelKept ch (some j) →
      j.acquireSlot < ch.config.hopList.length ∧ ∀ sl ∈ ch.slots.take j.acquireSlot, sl.Filled := by
    intro h
    have hsl := h.2.2.1
    unfold slotsFollowState at hsl
    simp only [calibrating h] at hsl
    exact hsl j rfl hp
  have filled : channelKept ch (some j) → ∀ sum : Nat,
      ∀ sl ∈ (ch.slots.modify j.acquireSlot fun sl => sl.filledFrom sum).take (j.acquireSlot + 1),
        sl.Filled :=
    fun h _ => filled_take_modify (before h).2 fun _ => ⟨rfl, rfl⟩
  have steps : ∀ sum : Nat, (ch.slots.modify j.acquireSlot fun sl => sl.filledFrom sum).map Slot.step
      = ch.slots.map Slot.step := fun _ => List.map_modify_eq _ _ _ _ fun _ => rfl
  unfold Job.acquireClean
  dsimp only
  split
  · refine ⟨rfl, rfl, rfl, fun h => ?_⟩
    obtain ⟨hv, hs, hsl, hj, hd, ht, hjob, ho⟩ := h
    refine ⟨hv, hs, ?_, hj, hd, ht, fun job hjob' => by cases hjob'; exact hjob j rfl, ho⟩
    unfold slotsFollowState at hsl ⊢
    cases hst : ch.state <;> simp only [hst] at hsl ⊢
    all_goals first
      | exact hsl
      | (rintro job ⟨⟩ h; exact hsl j rfl h)
  · split
    · rename_i hlast
      refine ⟨rfl, rfl, rfl, fun h => ?_⟩
      have hfill := filled h
      have hcal := calibrating h
      obtain ⟨hv, hs, hsl, hj, hd, ht, hjob, ho⟩ := h
      refine ⟨hv, ⟨(steps _).trans hs.1, hs.2⟩, ?_, hj, hd, ht,
        fun job hjob' => by cases hjob'; exact hjob j rfl, ho⟩
      unfold slotsFollowState
      simp only [Channel.modifySlot, hcal]
      rintro job ⟨⟩ -
      exact ⟨hlast, hfill _⟩
    · rename_i hlast
      refine ⟨by simp [Channel.calibrationSucceeds], by simp, fun h => ?_⟩
      have hfill := filled h
      have hb := before h
      have hcal := calibrating h
      obtain ⟨hv, hs, hsl, hj, hd, ht, hjob, ho⟩ := h
      have hlen : ch.slots.length = ch.config.hopList.length := by
        rw [← hs.1, List.length_map]
      refine Channel.Detects.kept ⟨rfl, hv, ⟨?_, hs.2.1, hs.2.2.1,
        Nat.lt_of_lt_of_le Nat.zero_lt_one hs.2.1⟩, ?_, ⟨Nat.zero_lt_succ _, fun _ _ => rfl⟩, fun h => (nomatch h : False).elim,
        ho.enabled (by simp [hcal])⟩
      · simpa [Channel.calibrationSucceeds, Channel.modifySlot, Function.comp_def] using
          (steps (j.sum + raw)).trans hs.1
      · intro sl' hsl'
        obtain ⟨sl, hsl, rfl⟩ := List.mem_map.1 hsl'
        have := hfill (j.sum + raw) sl (by
          rw [List.take_of_length_le (by rw [List.length_modify]; omega)]
          exact hsl)
        exact this

/-- An accepted sample keeps the job and its channel as the rules keep them (R69 to R76). -/
theorem Job.accept_keeps (j : Job) (c : ChannelNo) (ch : Channel) (x : Sample) :
    (j.accept c ch x).Keeps j ch := by
  have renumbered : ∀ (j' : Job), j'.lo = j.lo → j'.hi = j.hi → j'.phase = j.phase →
      j'.acquireSlot = j.acquireSlot → channelKept ch (some j) → channelKept ch (some j') := by
    rintro j' h1 h2 h3 h4 ⟨hv, hs, hsl, hj, hd, ht, hjob, ho⟩
    refine ⟨hv, hs, ?_, hj, hd, ht, ?_, ho⟩
    · unfold slotsFollowState at hsl ⊢
      cases hst : ch.state <;> simp only [hst] at hsl ⊢
      all_goals first
        | exact hsl
        | (rintro job ⟨⟩ h
           rw [h4]
           exact hsl j rfl (h3 ▸ h))
    · rintro job ⟨⟩
      obtain ⟨a, b, c, d⟩ := hjob j rfl
      exact ⟨h1 ▸ a, h1 ▸ h2 ▸ b, h2 ▸ c, fun h => by rw [h1, h2]; exact d (h3 ▸ h)⟩
  have back : ∀ st : JobStep, st.Keeps { j with faultRun := 0 } ch → st.Keeps j ch := by
    intro st h
    cases st with
    | goesOn j' ch' =>
      exact ⟨h.1, h.2.1, h.2.2.1, fun hk => h.2.2.2 (renumbered { j with faultRun := 0 } rfl rfl rfl rfl hk)⟩
    | ends o ch' events =>
      exact ⟨h.1, h.2.1, fun hk => h.2.2 (renumbered { j with faultRun := 0 } rfl rfl rfl rfl hk)⟩
  unfold Job.accept
  split
  · split
    · exact ⟨rfl, rfl, rfl, renumbered _ rfl rfl rfl rfl⟩
    · exact ⟨by simp [Channel.enterFault], by simp [Body.isRaised], fun h => h.enterFault (by
        have hj := h.2.2.2.1
        unfold jobFollowsState at hj
        simp only [Option.isSome_some] at hj
        rw [eq_comm, beq_iff_eq] at hj
        simp [hj])⟩
  · unfold Job.noisy
    split
    · exact ⟨rfl, rfl, rfl, renumbered _ rfl rfl rfl rfl⟩
    · exact ⟨by simp [Channel.calibrationFails], by simp, fun h => h.calibrationFails⟩
  · split <;> rename_i hp
    · exact back _ (Job.searchClean_keeps _ ch x.raw hp)
    · exact back _ (Job.acquireClean_keeps _ ch x.raw hp)

/-! ## The state that a sample leaves -/

theorem Channel.rebaseline_state (ch : Channel) : ch.rebaseline.state = ch.state := by
  unfold Channel.rebaseline
  split
  · split <;> rfl
  · rfl

theorem Channel.drift_state (ch : Channel) : ch.drift.state = ch.state := by
  unfold Channel.drift
  split
  · rfl
  · split <;> rfl

theorem Channel.negative_state (ch : Channel) (c : ChannelNo) (d : Int) :
    (ch.negative c d).1.state = ch.state := by
  unfold Channel.negative
  dsimp only
  generalize (if d ≤ -(ch.config.negThreshold : Int) then ch.negRun + 1 else 0) = run
  split
  · exact Channel.rebaseline_state _
  · rfl

theorem Channel.track_state (ch : Channel) (was : ChannelState) (c : ChannelNo) (d : Int) :
    (ch.track was c d).1.state = ch.state := by
  unfold Channel.track
  split
  · split
    · rw [Channel.negative_state, Channel.drift_state]
    · rfl
  · rfl

theorem Channel.judge_detecting (ch : Channel) (d : Int) (h : ch.state.isDetecting = true) :
    (ch.judge d).state.isDetecting = true := by
  unfold Channel.judge
  cases hst : ch.state <;> simp only [hst] at h ⊢
  all_goals first
    | (cases h; done)
    | (repeat' split) <;>
        simp [Channel.touch, Channel.toIdle, ChannelState.isDetecting]

theorem Channel.cleanSample_detecting (ch : Channel) (c : ChannelNo) (i raw : Nat)
    (h : ch.state.isDetecting = true) :
    (ch.cleanSample c i raw).channel.state.isDetecting = true := by
  unfold Channel.cleanSample
  dsimp only
  split
  · exact h
  · rw [Channel.track_state]
    exact Channel.judge_detecting _ _ h

theorem Channel.noisySample_state (ch : Channel) (c : ChannelNo) (i : Nat) :
    (ch.noisySample c i).channel.state = ch.state := by
  have hop : ∀ ch : Channel, (ch.hop i).state = ch.state := by
    intro ch
    unfold Channel.hop
    split <;> rfl
  unfold Channel.noisySample
  dsimp only
  split <;> exact hop _

/-- No SCAN sample takes a channel into CALIBRATING or out of it. -/
theorem Channel.scanSample_not_calibrating (ch : Channel) (c : ChannelNo) (x : Sample)
    (h : ch.state ≠ .calibrating) : (ch.scanSample c x).channel.state ≠ .calibrating := by
  have ok : ∀ {st : ChannelState}, st.isDetecting = true → st ≠ .calibrating := by
    rintro st hd rfl
    cases hd
  unfold Channel.scanSample
  dsimp only
  split
  · rename_i hd
    split
    · unfold Channel.faultSample
      split
      · exact h
      · exact fun e => nomatch e
    · rw [Channel.noisySample_state]
      exact h
    · exact ok (Channel.cleanSample_detecting _ _ _ _ hd)
  · split
    · unfold Channel.sampleInFault
      split
      · exact h
      all_goals
        split
        · exact h
        · exact fun e => nomatch e
    · exact h

theorem Channel.scanSample_calibrating (ch : Channel) (c : ChannelNo) (x : Sample)
    (h : ch.state = .calibrating) : ch.scanSample c x = { channel := ch } := by
  unfold Channel.scanSample
  simp [h, ChannelState.isDetecting]

/-- The events of a SCAN sample (R42, R44, R48, R49, R58). -/
theorem Channel.scanSample_events (ch : Channel) (c : ChannelNo) (x : Sample) {b : Body}
    (h : b ∈ (ch.scanSample c x).events) :
    (∃ condition, b = .fault c condition) ∨ (∃ on, b = .noise c on x.slot)
      ∨ b = .recal c .negative := by
  unfold Channel.scanSample at h
  dsimp only at h
  split at h
  · split at h
    · unfold Channel.faultSample at h
      split at h
      · cases h
      · exact .inl ⟨_, List.mem_singleton.1 h⟩
    · unfold Channel.noisySample at h
      dsimp only at h
      split at h
      · exact .inr (.inl ⟨_, List.mem_singleton.1 h⟩)
      · cases h
    · unfold Channel.cleanSample at h
      dsimp only at h
      have off : ∀ {ch : Channel}, b ∈ (ch.noiseOff c x.slot).2 → ∃ on, b = .noise c on x.slot := by
        intro ch hb
        unfold Channel.noiseOff at hb
        dsimp only at hb
        split at hb
        · exact ⟨_, List.mem_singleton.1 hb⟩
        · cases hb
      have tracked : ∀ {ch : Channel} {was : ChannelState} {d : Int}, b ∈ (ch.track was c d).2 →
          b = .recal c .negative := by
        intro ch was d hb
        unfold Channel.track at hb
        split at hb
        · split at hb
          · unfold Channel.negative at hb
            dsimp only at hb
            generalize (if d ≤ -(ch.drift.config.negThreshold : Int) then ch.drift.negRun + 1 else 0)
              = run at hb
            split at hb
            · exact List.mem_singleton.1 hb
            · cases hb
          · cases hb
        · cases hb
      split at h
      · exact .inr (.inl (off h))
      · rcases List.mem_append.1 h with h | h
        · exact .inr (.inl (off h))
        · exact .inr (.inr (tracked h))
  · split at h
    · unfold Channel.sampleInFault at h
      split at h
      · cases h
      all_goals
        split at h
        · cases h
        · exact .inl ⟨_, List.mem_singleton.1 h⟩
    · cases h

theorem Channel.scanSample_raised (ch : Channel) (c : ChannelNo) (x : Sample) :
    ∀ b ∈ (ch.scanSample c x).events, b.isRaised = true := by
  intro b hb
  rcases ch.scanSample_events c x hb with ⟨_, rfl⟩ | ⟨_, rfl⟩ | rfl <;> rfl

/-! ## Delivery -/

theorem Moves.applyScan (s : State) (c : ChannelNo) (x : Sample) (hx : s.CountsKept → x.InRange) :
    Moves s (s.applyEffect c ((s.chan c).scanSample c x)) := by
  by_cases hc : (s.chan c).state = .calibrating
  · rw [Channel.scanSample_calibrating _ _ _ hc]
    simp only [State.applyEffect, State.setChan_chan_self, State.postAll, List.foldl_nil]
    exact .refl s
  · have moved : Moves s ((s.setChan c ((s.chan c).scanSample c x).channel).postAll
        ((s.chan c).scanSample c x).events) :=
      (Move.channel s c _ hc (Channel.scanSample_not_calibrating _ c x hc)
        (fun h => h.scanSample c x) fun hs hk h => h.scanSample hk.1 c (hx hs)).moves.trans (.postAll _ _ (Channel.scanSample_raised _ c x))
    unfold State.applyEffect
    dsimp only
    split <;> split
    · exact (moved.trans (.autoJobAtFaultExit _ _)).trans (.touchSignal _ _)
    · exact moved.trans (.touchSignal _ _)
    · exact moved.trans (.autoJobAtFaultExit _ _)
    · exact moved

theorem Moves.deliverScan (s : State) (r : BurstRecord) (x : Sample)
    (hx : s.CountsKept → x.InRange) : Moves s (s.deliverScan r x) := by
  unfold State.deliverScan
  split
  · exact .applyScan s _ _ hx
  · exact .refl s

theorem Moves.deliverCal (s : State) (r : BurstRecord) (serial : Nat) (x : Sample)
    (hx : s.CountsKept → x.InRange) : Moves s (s.deliverCal r serial x) := by
  unfold State.deliverCal
  split
  · rename_i j hj
    split
    · have keeps := Job.accept_keeps j r.channel (s.chan r.channel) x
      have ranges := fun (hs : s.CountsKept) (hj : j.ValuesKept)
          (hc : (s.chan r.channel).ValuesKept) =>
        Job.accept_inRange hj hc (hx hs) r.channel
      split <;> rename_i h <;> rw [h] at keeps ranges
      · exact (Move.advance s _ j _ _ hj keeps.1 (by rw [sameCalibrating, keeps.2.2.1])
          keeps.2.2.2 ranges).moves
      · exact (Move.ended s _ j _ _ _ none hj keeps.1 keeps.2.1 keeps.2.2 ranges).moves
    · exact .refl s
  · exact .refl s

theorem State.mem_of_entryOfTag {s : State} {tag : Byte} {e : PendingEntry}
    (h : s.entryOfTag tag = some e) : e ∈ s.table ∧ e.tag = tag :=
  ⟨List.mem_of_find?_eq_some h, by simpa using List.find?_some h⟩

/-- The entry that takes the place of a listed one is listed. -/
theorem mem_replace_of_mem {l : List PendingEntry} {e e' : PendingEntry} (h : e ∈ l) :
    e' ∈ l.replace e e' := by
  induction l with
  | nil => cases h
  | cons x rest ih =>
    rw [List.replace_cons]
    split
    · simp
    · rename_i hx
      rcases List.mem_cons.1 h with rfl | h
      · simp at hx
      · exact List.mem_cons_of_mem _ (ih h)

theorem Moves.deliverMeasure (s : State) (r : BurstRecord) (tag : Byte) (x : Sample) :
    Moves s (s.deliverMeasure r tag x) := by
  unfold State.deliverMeasure
  split
  · rename_i e he
    split
    · rename_i c slot count results hw
      split
      · have appended := (Move.measured s e c slot count results
          (results ++ [⟨x.raw, x.noise, x.cls⟩]) (State.mem_of_entryOfTag he).1 hw).moves
        dsimp only
        split
        · refine (appended.trans (Move.completed _ _ .done ?_ rfl).moves).trans (.autoJobIfScanned _ _)
          exact mem_replace_of_mem (State.mem_of_entryOfTag he).1
        · exact appended
      · exact .refl s
    · exact .refl s
  · exact .refl s

theorem Moves.deliver (s : State) (r : BurstRecord) (x : Sample) (hx : s.CountsKept → x.InRange) :
    Moves s (s.deliver r x) := by
  unfold State.deliver
  split
  · exact .deliverScan s _ _ hx
  · exact .deliverCal s _ _ _ hx
  · exact .deliverMeasure s _ _ _

theorem Moves.engineFree (s : State) (e : EngineId) : Moves s (s.engineFree e) :=
  ((Move.freed s e).moves.trans (.offer _ e)).trans (.settleCycle _)

theorem Moves.burstComplete (s : State) (e : EngineId) (cycles : Nat) :
    Moves s (s.burstComplete e cycles) := by
  unfold State.burstComplete
  split
  · exact (Moves.deliver s _ _ fun h => h.sample ‹_› _ _).trans (.engineFree _ e)
  · exact .refl s
  · exact .refl s
  · exact .refl s

/-! ## Expiries -/

theorem Moves.periodExpiry (s : State) : Moves s s.periodExpiry := by
  unfold State.periodExpiry
  split
  · split
    · refine .withSched s _ (.of_cycle rfl rfl rfl rfl fun cy' h => ?_)
      obtain ⟨cy, hc, rfl⟩ := Option.map_eq_some_iff.1 h
      exact ⟨cy, hc, rfl⟩
    · split
      · exact (Moves.setPeriod s none).trans (.startCycle _ _)
      · exact .setPeriod s none
  · exact .refl s

theorem Moves.inactivityExpiry (s : State) : Moves s s.inactivityExpiry := by
  unfold State.inactivityExpiry
  split
  · split
    · split
      · exact .activeToDoze s _
      · exact .setInactivity s _
    · exact .refl s
  · exact .refl s
  · exact .refl s

theorem Moves.maxOnExpiry (s : State) (c : ChannelNo) : Moves s (s.maxOnExpiry c) := by
  unfold State.maxOnExpiry
  dsimp only
  split
  · rename_i h
    have held := (Bool.and_eq_true_iff.1 h).2
    have hd : (s.chan c).state.isDetecting = true := by
      cases hst : (s.chan c).state <;> simp only [hst] at held ⊢ <;> first | rfl | cases held
    have hn : (s.chan c).state ≠ .calibrating := by
      intro e
      rw [e] at hd
      cases hd
    refine (Move.channel s c _ hn (by simp [Channel.maxOnExpire]) (fun hk => ?_)
      fun _ _ h => h.maxOnExpire).moves.trans (.post _ _ rfl)
    have b := (Channel.detects_of_kept hd hk).rebaseline
    exact Channel.Detects.kept ⟨rfl, b.valid, b.slots, b.filled, ⟨Nat.zero_lt_succ _, fun _ _ => rfl⟩,
      (fun h => nomatch h), b.enabled⟩
  · exact .refl s

/-! ## Ends from outside -/

theorem Moves.stopJob (s : State) (c : ChannelNo) : Moves s (s.stopJob c) := by
  unfold State.stopJob
  split
  · rename_i j hj
    unfold State.abortJob
    rw [hj]
    exact (Move.ended s c j .aborted _ [] (some .aborted) hj (by simp [Channel.calibrationFails]) (by simp)
      (fun h => h.calibrationFails) fun _ _ h => h.calibrationFails).moves
  · exact .refl s

theorem Moves.stopJobs (s : State) : Moves s s.stopJobs := by
  unfold State.stopJobs
  generalize allChannels = cs
  induction cs generalizing s with
  | nil => exact .refl s
  | cons c rest ih => exact (Moves.stopJob s c).trans (ih _)

theorem Moves.stopMeasures (s : State) : Moves s s.stopMeasures := by
  unfold State.stopMeasures
  have sub : (s.table.filter fun e => e.work.measured.isSome).Sublist s.table := List.filter_sublist
  have all : ∀ e ∈ s.table.filter (fun e => e.work.measured.isSome), e.work.measured.isSome = true :=
    fun e he => (List.mem_filter.1 he).2
  generalize s.table.filter (fun e => e.work.measured.isSome) = l at sub all
  induction l generalizing s with
  | nil => exact .refl s
  | cons e rest ih =>
    refine (Move.completed s e .aborted (sub.subset (by simp)) (all e (by simp))).moves.trans
      (ih _ ?_ fun x hx => all x (by simp [hx]))
    have := sub.erase e
    rwa [List.erase_cons_head] at this

/-- The stop keeps the record as the rules keep it (R62). -/
theorem channelKept.stop {ch : Channel} {j : Option Job} (h : channelKept ch j) :
    channelKept ch.stop j := by
  unfold Channel.stop
  split
  · rename_i ht
    have hd : ch.state.isDetecting = true := by
      cases hst : ch.state <;> simp only [hst] at ht ⊢ <;> first | rfl | cases ht
    have b := Channel.detects_of_kept hd h
    have hj : j = none := by
      have := h.2.2.2.1
      unfold jobFollowsState at this
      cases j with
      | none => rfl
      | some j =>
        cases hst : ch.state <;> simp [hst] at this ht
        cases ht
    subst hj
    exact Channel.Detects.kept ⟨rfl, b.valid, b.slots, b.filled, ⟨Nat.zero_lt_succ _, fun _ _ => rfl⟩,
      (fun h => nomatch h), b.enabled⟩
  · exact h

theorem Channel.stop_calibrating (ch : Channel) : sameCalibrating ch ch.stop := by
  unfold sameCalibrating Channel.stop
  split
  · rename_i ht
    constructor
    · intro h
      cases h
    · intro h
      rw [h] at ht
      cases ht
  · exact Iff.rfl

theorem Moves.stopChannels (s : State) : Moves s (s.mapChannels fun _ ch => ch.stop) :=
  (Move.channels s (fun _ ch => ch.stop) (fun c => Channel.stop_calibrating (s.chan c))
    (fun _ _ h => channelKept.stop h) fun _ h => h.stop).moves

/-- A completion in the instant of the stop, after which the engine is IDLE. -/
theorem Moves.completeInStop (s : State) (m : EngineId × Nat) : Moves s (s.completeInStop m) := by
  unfold State.completeInStop
  split
  · exact (Moves.deliver s _ _ fun h => h.sample ‹_› _ _).trans (Move.freed _ _).moves
  · exact .refl s
  · exact .refl s
  · exact .refl s

theorem Moves.completionsInStop (s : State) (ms : List (EngineId × Nat)) :
    Moves s (ms.foldl State.completeInStop s) := by
  induction ms generalizing s with
  | nil => exact .refl s
  | cons m rest ih => exact (Moves.completeInStop s m).trans (ih _)

theorem Moves.stopScheduler (s : State) : Moves s s.stopScheduler :=
  .withSched s _ (.of_cycle rfl rfl rfl rfl fun _ h => nomatch h)

theorem Moves.meetStop (s : State) : Moves s s.meetStop :=
  (Moves.completionsInStop s _).trans (Move.drawn _ _).moves

theorem Moves.stopOthers (s : State) : Moves s s.stopOthers := by
  unfold State.stopOthers
  extract_lets aborted
  have h1 : Moves s aborted := ((Move.abandon s).moves.trans (.stopJobs _)).trans (.stopMeasures _)
  exact (h1.trans (.stopChannels aborted)).trans ((Moves.stopKeys _).trans (.post _ _ rfl))

theorem Moves.stopPart (s : State) : Moves s s.stopPart :=
  ((Moves.stopScheduler s).trans (.meetStop _)).trans (.stopOthers _)

theorem Moves.setMode (s : State) (m : Mode) : Moves s (s.setMode m) := by
  unfold State.setMode
  split
  · exact .startActive s
  · exact .startActive s
  · exact .startDoze s
  · exact .stopPart s
  · exact .stopPart s
  · exact .stopPart s
  · exact .activeToDoze s _
  · exact .dozeToActive s _
  · exact .refl s

theorem Moves.cancelMeasure (s : State) (e : PendingEntry) (c : ChannelNo) (h : e ∈ s.table)
    (hw : e.work.measured.isSome = true) : Moves s (s.cancelMeasure e c) := by
  unfold State.cancelMeasure
  split
  · exact (((Move.freed s _).moves.trans (Move.completed (s.setEngine _ .idle) e .cancelled h hw).moves).trans
      (.autoJobIfScanned _ _)).trans (.engineFree _ _)
  · exact (Move.completed s e .cancelled h hw).moves.trans (.autoJobIfScanned _ _)

theorem Moves.cancelEntry (s : State) (e : PendingEntry) (h : s.entryOfTag e.tag = some e) :
    Moves s (s.cancelEntry e) := by
  unfold State.cancelEntry
  split <;> rename_i hw
  · exact (Move.cancelled s e _ _ h hw).moves
  · exact .cancelMeasure s e _ (State.mem_of_entryOfTag h).1 (by simp [hw, LongWork.measured])

end Sys2Proof.Machine
end

