-- ==== Sys2Proof/Laws/Requests.lean ====
section
/-! SUPPORT. What taking a request, and judging it, can come to. -/

namespace Sys2Proof.Machine

/-- An answer joins the tail of the queue with the next sequence number. -/
theorem State.answer_eq (s : State) (b : Body) : s.answer b = s.afterAdmit b := rfl

/-- The REPLY to a request, as the statements write it. -/
theorem State.reply_eq (s : State) (tag : Byte) (status : Status) (data : ReplyData) :
    s.reply tag status data = s.afterReply tag status data := rfl

/-- The frame that may be taken now is the one the statements name. -/
theorem State.takes_iff_takeable {s : State} {i : SlotId} {f : Frame} :
    s.takeable = some (i, f) ↔ s.Takes f.code i f := by
  constructor
  · intro h
    unfold State.takeable at h
    split at h
    · rename_i hl
      unfold LinkPort.earliestFull at h
      split at h
      · rename_i j rest hf
        split at h
        · rename_i g hg
          simp only [Option.some.injEq, Prod.mk.injEq] at h
          obtain ⟨rfl, rfl⟩ := h
          exact ⟨hl.2, hl.1, by simp [hf], hg, rfl⟩
        · cases h
        · cases h
      · cases h
    · cases h
  · rintro ⟨hr, hl, hh, hs, -⟩
    obtain ⟨rest, hf⟩ : ∃ rest, s.link.fullOrder = i :: rest := by
      cases hf : s.link.fullOrder with
      | nil => simp [hf] at hh
      | cons j rest => simp [hf] at hh; exact ⟨rest, by rw [hh]⟩
    simp [State.takeable, hr, hl, LinkPort.earliestFull, hf, hs]

/-- The taking of the earliest FULL slot. -/
theorem State.withLink_takeSlot {s : State} {i : SlotId} (h : s.link.fullOrder.head? = some i) :
    s.withLink (s.link.takeSlot i) = s.afterTake i := by
  cases hf : s.link.fullOrder with
  | nil => simp [hf] at h
  | cons j rest =>
    simp only [hf, List.head?_cons, Option.some.injEq] at h
    subst h
    simp [State.withLink, LinkPort.takeSlot, State.afterTake, hf]

/-- A request command whose frame may be taken handles it, with the slot EMPTY. -/
theorem State.takeRequest_of_takes {s : State} {code : Byte} {i : SlotId} {f : Frame}
    (h : s.Takes code i f) {ok : Byte → Bool} {handle : State → Frame → State}
    (hok : ok code = true) : s.takeRequest ok handle = handle (s.afterTake i) f := by
  have hc : f.code = code := h.2.2.2.2
  subst hc
  have ht := State.takes_iff_takeable.mpr h
  simp only [State.takeRequest, ht, hok, if_true, State.withLink_takeSlot h.2.2.1]

/-- All that a request command can come to. -/
theorem State.takeRequest_cases (s : State) (ok : Byte → Bool) (handle : State → Frame → State) :
    s.takeRequest ok handle = s
      ∨ ∃ i f, s.Takes f.code i f ∧ ok f.code = true
        ∧ s.takeRequest ok handle = handle (s.afterTake i) f := by
  unfold State.takeRequest
  split
  · rename_i i f h
    split
    · rename_i hok
      have ht := State.takes_iff_takeable.mp h
      exact .inr ⟨i, f, ht, hok, by rw [State.withLink_takeSlot ht.2.2.1]⟩
    · exact .inl rfl
  · exact .inl rfl

/-- A request command with no such frame to take leaves the state. -/
theorem State.takeRequest_of_not_takes {s : State} {ok : Byte → Bool}
    {handle : State → Frame → State} (h : ∀ i f, s.Takes f.code i f → ok f.code = false) :
    s.takeRequest ok handle = s := by
  rcases s.takeRequest_cases ok handle with he | ⟨i, f, ht, hok, -⟩
  · exact he
  · rw [h i f ht] at hok; cases hok

/-- All that the judgement of a request can come to: a refusal, or the effect. -/
theorem State.perform_cases {α : Type} (s : State) (tag : Byte) (operands : Except Status α)
    (checks : α → List (Bool × Status)) (effect : α → State) :
    (∃ status, s.perform tag operands checks effect = s.afterReply tag status
        ∧ (operands = .error status ∨ ∃ x, operands = .ok x ∧ firstFailure (checks x) = some status))
      ∨ ∃ x, operands = .ok x ∧ firstFailure (checks x) = none
        ∧ s.perform tag operands checks effect = effect x := by
  unfold State.perform
  cases operands with
  | error status => exact .inl ⟨status, rfl, .inl rfl⟩
  | ok x =>
    cases h : firstFailure (checks x) with
    | some status => exact .inl ⟨status, by simp [h, State.reply_eq], .inr ⟨x, rfl, h⟩⟩
    | none => exact .inr ⟨x, rfl, h, by simp [h]⟩

@[simp] theorem State.perform_error {α : Type} (s : State) (tag : Byte) (status : Status)
    (checks : α → List (Bool × Status)) (effect : α → State) :
    s.perform tag (.error status) checks effect = s.afterReply tag status := rfl

theorem State.perform_ok {α : Type} (s : State) (tag : Byte) (x : α)
    (checks : α → List (Bool × Status)) (effect : α → State) :
    s.perform tag (.ok x) checks effect
      = match firstFailure (checks x) with
        | some status => s.afterReply tag status
        | none => effect x := rfl

@[simp] theorem firstFailure_nil : firstFailure [] = none := rfl

@[simp] theorem firstFailure_cons (fails : Bool) (status : Status) (rest : List (Bool × Status)) :
    firstFailure ((fails, status) :: rest) = if fails then some status else firstFailure rest := rfl

/-- A list holds an item twice exactly when it is not free of repeats. -/
theorem hasRepeat_eq {α : Type} [DecidableEq α] (l : List α) :
    hasRepeat l = decide (¬ l.Nodup) := by
  induction l with
  | nil => simp [hasRepeat]
  | cons x rest ih =>
    simp only [hasRepeat, ih, List.nodup_cons]
    by_cases hx : x ∈ rest <;> simp [hx]

/-! ## What the taking of a slot leaves -/

@[simp] theorem State.afterTake_pending (s : State) (i : SlotId) :
    (s.afterTake i).pending = s.pending := rfl
@[simp] theorem State.afterTake_engines (s : State) (i : SlotId) :
    (s.afterTake i).engines = s.engines := rfl
@[simp] theorem State.afterTake_engine (s : State) (i : SlotId) (e : EngineId) :
    (s.afterTake i).engine e = s.engine e := rfl
@[simp] theorem State.afterTake_channels (s : State) (i : SlotId) :
    (s.afterTake i).channels = s.channels := rfl
@[simp] theorem State.afterTake_jobs (s : State) (i : SlotId) : (s.afterTake i).jobs = s.jobs := rfl
@[simp] theorem State.afterTake_keys (s : State) (i : SlotId) : (s.afterTake i).keys = s.keys := rfl
@[simp] theorem State.afterTake_chan (s : State) (i : SlotId) (c : ChannelNo) :
    (s.afterTake i).chan c = s.chan c := rfl
@[simp] theorem State.afterTake_job (s : State) (i : SlotId) (c : ChannelNo) :
    (s.afterTake i).job c = s.job c := rfl
@[simp] theorem State.afterTake_key (s : State) (i : SlotId) (k : KeyNo) :
    (s.afterTake i).key k = s.key k := rfl
@[simp] theorem State.afterTake_sched (s : State) (i : SlotId) :
    (s.afterTake i).sched = s.sched := rfl
@[simp] theorem State.afterTake_queue (s : State) (i : SlotId) :
    (s.afterTake i).queue = s.queue := rfl
@[simp] theorem State.afterTake_table (s : State) (i : SlotId) :
    (s.afterTake i).table = s.table := rfl
@[simp] theorem State.afterTake_lastCause (s : State) (i : SlotId) :
    (s.afterTake i).lastCause = s.lastCause := rfl
@[simp] theorem State.afterTake_inReset (s : State) (i : SlotId) :
    (s.afterTake i).inReset = s.inReset := rfl
@[simp] theorem State.afterTake_bus (s : State) (i : SlotId) :
    (s.afterTake i).bus = s.bus := rfl
@[simp] theorem State.afterTake_lines (s : State) (i : SlotId) :
    (s.afterTake i).lines = s.lines := rfl
@[simp] theorem State.afterTake_freeCount (s : State) (i : SlotId) :
    (s.afterTake i).freeCount = s.freeCount := rfl
@[simp] theorem State.afterTake_nextJob (s : State) (i : SlotId) :
    (s.afterTake i).nextJob = s.nextJob := rfl
@[simp] theorem State.afterTake_address (s : State) (i : SlotId) :
    (s.afterTake i).link.address = s.link.address := by cases i <;> rfl
@[simp] theorem State.afterTake_held (s : State) (i : SlotId) : (s.afterTake i).held = s.held := rfl

end Sys2Proof.Machine
end

