-- ==== Sys2Proof/Laws/Operands.lean ====
section
/-! SUPPORT. The operands of a request read back from the payload that spells them. -/

namespace Sys2Proof.Machine

theorem toNat_ofNat8 {n : Nat} (h : n < 256) : (BitVec.ofNat 8 n).toNat = n := by
  simpa using Nat.mod_eq_of_lt h

theorem channelOf_val (c : ChannelNo) : channelOf c.val = some c := by simp [channelOf, c.isLt]

theorem keyOf_val (k : KeyNo) : keyOf k.val = some k := by simp [keyOf, k.isLt]

theorem channelList_spelled (cs : List ChannelNo) :
    channelList (cs.map fun c : ChannelNo => BitVec.ofNat 8 c.val) = some cs := by
  induction cs with
  | nil => rfl
  | cons c cs ih =>
    have hc : (BitVec.ofNat 8 c.val).toNat = c.val := toNat_ofNat8 (by omega)
    simp only [List.map_cons, channelList, ih, hc, channelOf_val]

theorem scanEntryList_spelled (es : List ScanEntry) :
    scanEntryList (es.flatMap fun e => [BitVec.ofNat 8 e.channel.val, if e.doze then 1 else 0])
      = some es := by
  induction es with
  | nil => rfl
  | cons e es ih =>
    have hc : (BitVec.ofNat 8 e.channel.val).toNat = e.channel.val := toNat_ofNat8 (by omega)
    have hd : (if e.doze then (1 : Byte) else 0).toNat = if e.doze then 1 else 0 := by
      cases e.doze <;> rfl
    simp only [List.flatMap_cons, List.cons_append, List.nil_append, scanEntryList, ih, hc, hd,
      channelOf_val]
    obtain ⟨c, d⟩ := e
    cases d <;> simp [isYesNo]

/-- The four hop-step bytes, of which those below the hop-list length are the steps. -/
theorem hopBytes_length (hops : List Nat) (free : Nat) : (hopBytes hops free).length = 4 := by
  simp [hopBytes]

theorem hopBytes_get {hops : List Nat} {free i : Nat} (hi : i < hops.length) (h4 : hops.length ≤ 4) :
    (hopBytes hops free).getD i 0 = BitVec.ofNat 8 (hops.getD i 0) := by
  have hi4 : i < 4 := by omega
  simp [hopBytes, hi4, hi, byteOf]

/-- The configuration block is 28 bytes long. -/
theorem ChannelConfig.block_length (g : ChannelConfig) (free : Nat) : (g.block free).length = 28 := by
  simp [ChannelConfig.block, hopBytes_length, be16]

/-- The ranges of a configuration, as the request check reads them (R20). -/
theorem ChannelConfig.valid_iff (g : ChannelConfig) : g.valid = true ↔ g.InRange := by
  simp [ChannelConfig.valid, ChannelConfig.InRange, inRange, and_assoc]

/-- The fields of a SET_CHANNEL payload, its window-mode byte a listed one (chapter 9). -/
theorem configAt_spelled {p : List Byte} (h : (p.getD 7 0).toNat ≤ 1) :
    configAt p = spelledConfig p := by
  have hwin : (if byteAt p 7 = 1 then WindowMode.auto else .fixed)
      = if (p.getD 7 0).toNat = 0 then .fixed else .auto := by
    have : byteAt p 7 = (p.getD 7 0).toNat := rfl
    rw [this]
    generalize (p.getD 7 0).toNat = n at h
    have : n = 0 ∨ n = 1 := by omega
    rcases this with rfl | rfl <;> rfl
  have hword : ∀ i, wordAt p i = 256 * (p.getD i 0).toNat + (p.getD (i + 1) 0).toNat := fun i => by
    unfold wordAt byteAt
    omega
  have hyes : ∀ i, (byteAt p i == 1) = decide ((p.getD i 0).toNat = 1) := fun i => by
    unfold byteAt
    exact beq_eq_decide _ _
  unfold configAt spelledConfig
  rw [hwin]
  simp only [hword, hyes]
  rfl

/-- SET_CHANNEL reads back from a payload that spells it, whatever its ignored bytes hold (R163). -/
theorem parseSetChannel_spelled {p : List Byte} (h : SpellsConfig p) (c : ChannelNo)
    (hc : c.val = (p.getD 0 0).toNat) : parseSetChannel p = .ok (c, spelledConfig p) := by
  obtain ⟨h29, h0, h1, h7, h28, hr⟩ := h
  have hn : channelOf (byteAt p 0) = some c := by
    unfold byteAt
    rw [← hc]
    exact channelOf_val c
  have hv : (configCodesListed p && (configAt p).valid) = true := by
    rw [configAt_spelled h7, Bool.and_eq_true, ChannelConfig.valid_iff]
    exact ⟨by simp [configCodesListed, isYesNo, byteAt] at *; omega, hr⟩
  unfold parseSetChannel
  rw [if_pos h29, hn]
  dsimp only
  rw [if_pos hv, configAt_spelled h7]

/-- A SET_CHANNEL payload with a value out of its range is RANGE (R172). -/
theorem parseSetChannel_unspelled {p : List Byte} (h29 : p.length = 29) (h : ¬ SpellsConfig p) :
    parseSetChannel p = .error .range := by
  unfold parseSetChannel
  rw [if_pos h29]
  cases hc : channelOf (byteAt p 0) with
  | none => rfl
  | some c =>
    have h0 : (p.getD 0 0).toNat ≤ 23 := by
      unfold channelOf at hc
      split at hc
      · unfold byteAt at *
        omega
      · cases hc
    dsimp only
    rw [if_neg]
    intro hv
    rw [Bool.and_eq_true, ChannelConfig.valid_iff] at hv
    have hl := hv.1
    simp [configCodesListed, isYesNo, byteAt] at hl
    obtain ⟨⟨h1, h7⟩, h28⟩ := hl
    simp only [← List.getD_eq_getElem?_getD] at h1 h7 h28
    rw [configAt_spelled h7] at hv
    exact h ⟨h29, h0, h1, h7, h28, hv.2⟩

/-- SET_KEY reads back from the payload that spells it. -/
theorem parseSetKey_spelled (k : KeyNo) (kind : KeyKind) (group step : Byte) (cs : List ChannelNo)
    (hg : group.toNat ≤ 4)
    (hn : match kind with
      | .button => cs.length = 1
      | .slider => 2 ≤ cs.length ∧ cs.length ≤ 8 ∧ step.toNat ≤ 32) :
    parseSetKey ([BitVec.ofNat 8 k.val, kind.code, group, step, BitVec.ofNat 8 cs.length]
        ++ cs.map fun c : ChannelNo => BitVec.ofNat 8 c.val)
      = .ok
        { key := k, kind := kind, group := if group = 0 then none else some group.toNat
          slideStep := slideStepOf kind step.toNat, channels := cs } := by
  have hl : 1 ≤ cs.length ∧ cs.length ≤ 8 := by cases kind <;> simp at hn <;> omega
  have hz : ∀ b : Byte, (b.toNat = 0) = (b = 0) := fun b =>
    propext ⟨fun h => BitVec.eq_of_toNat_eq (by simpa using h), fun h => by rw [h]; rfl⟩
  have hk : (BitVec.ofNat 8 k.val).toNat = k.val := toNat_ofNat8 (by omega)
  have hcs : (BitVec.ofNat 8 cs.length).toNat = cs.length := toNat_ofNat8 (by omega)
  have hkind : keyKindOf kind.code.toNat = some kind := by cases kind <;> rfl
  have hlen : setKeyLengthOk ([BitVec.ofNat 8 k.val, kind.code, group, step, BitVec.ofNat 8 cs.length]
      ++ cs.map fun c : ChannelNo => BitVec.ofNat 8 c.val) = true := by
    simp only [setKeyLengthOk, inRange, byteAt, List.cons_append, List.getD_cons_succ,
      List.getD_cons_zero, hcs]
    simp; omega
  have hsuits : (slideStepOk kind step.toNat && countSuits kind cs.length) = true := by
    cases kind <;> simp at hn <;> simp [slideStepOk, countSuits, inRange, hn]
  rw [Bool.and_eq_true] at hsuits
  rw [parseSetKey, if_pos hlen]
  simp only [byteAt, List.cons_append, List.nil_append,
    List.getD_cons_succ, List.getD_cons_zero, hk, keyOf_val, hkind, List.drop_succ_cons,
    List.drop_zero, channelList_spelled, hg, decide_true, hsuits.1, hsuits.2, Bool.and_self]
  simp [hz]

/-- SET_SCAN reads back from the payload that spells it. -/
theorem parseSetScan_spelled (es : List ScanEntry) (h : es.length ≤ 24) :
    parseSetScan (BitVec.ofNat 8 es.length
        :: es.flatMap fun e => [BitVec.ofNat 8 e.channel.val, if e.doze then 1 else 0]) = .ok es := by
  have hn : (BitVec.ofNat 8 es.length).toNat = es.length := toNat_ofNat8 (by omega)
  have hl : (es.flatMap fun e =>
      [BitVec.ofNat 8 e.channel.val, if e.doze then (1 : Byte) else 0]).length = 2 * es.length := by
    simp [List.length_flatMap, Nat.mul_comm]
  have hok : setScanLengthOk (BitVec.ofNat 8 es.length
      :: es.flatMap fun e => [BitVec.ofNat 8 e.channel.val, if e.doze then 1 else 0]) = true := by
    simp only [setScanLengthOk, inRange, byteAt, List.length_cons, hl, List.getD_cons_zero, hn]
    simp; omega
  simp only [parseSetScan, hok, if_true, List.drop_succ_cons, List.drop_zero,
    scanEntryList_spelled, byteAt, List.getD_cons_zero, hn, h]

/-- CALIBRATE reads back from the payload that spells it. -/
theorem parseCalibrate_spelled (cs : List ChannelNo) (h : cs.length ≤ 24) :
    parseCalibrate (BitVec.ofNat 8 cs.length :: cs.map fun c : ChannelNo => BitVec.ofNat 8 c.val) = .ok cs := by
  have hn : (BitVec.ofNat 8 cs.length).toNat = cs.length := toNat_ofNat8 (by omega)
  have hok : calibrateLengthOk (BitVec.ofNat 8 cs.length :: cs.map fun c : ChannelNo => BitVec.ofNat 8 c.val)
      = true := by
    simp only [calibrateLengthOk, inRange, byteAt, List.length_cons, List.length_map,
      List.getD_cons_zero, hn]
    simp; omega
  simp only [parseCalibrate, hok, if_true, List.drop_succ_cons, List.drop_zero, channelList_spelled]

/-- MEASURE reads back from the payload that spells it. -/
theorem parseMeasure_spelled (c : ChannelNo) (slot count : Byte) (h1 : 1 ≤ count.toNat)
    (h12 : count.toNat ≤ 12) :
    parseMeasure [BitVec.ofNat 8 c.val, slot, count]
      = .ok { channel := c, slot := slot.toNat, count := count.toNat } := by
  have hc : (BitVec.ofNat 8 c.val).toNat = c.val := toNat_ofNat8 (by omega)
  simp [parseMeasure, byteAt, hc, channelOf_val, inRange, h1, h12]

/-- A list of bytes with one above 23 names no channels. -/
theorem channelList_eq_none {bytes : List Byte} (h : ∃ b ∈ bytes, 23 < b.toNat) :
    channelList bytes = none := by
  induction bytes with
  | nil =>
    obtain ⟨b, hb, -⟩ := h
    cases hb
  | cons a rest ih =>
    unfold channelList
    by_cases ha : a.toNat < 24
    · have hr : ∃ b ∈ rest, 23 < b.toNat := by
        obtain ⟨b, hb, hl⟩ := h
        rcases List.mem_cons.1 hb with rfl | hb
        · omega
        · exact ⟨b, hb, hl⟩
      rw [ih hr]
      cases channelOf a.toNat <;> rfl
    · rw [channelOf, dif_neg ha]

end Sys2Proof.Machine
end

