-- ==== Sys2Proof/Laws/Stopping.lean ====
section
/-! SUPPORT. What the bursts that complete in the instant of a stop can do (R16, R44): the scheduler has
taken the stop, so their samples touch the channels, the jobs, the table and the queue alone. -/

namespace Sys2Proof.Machine

/-- The part outside the channels, the jobs, the table, the queue and the engines is as it was. -/
def State.SameOutside (s t : State) : Prop :=
  { t with
    engines := s.engines, channels := s.channels, jobs := s.jobs, queue := s.queue,
    table := s.table } = s

theorem State.SameOutside.refl (s : State) : s.SameOutside s := rfl

theorem State.SameOutside.of_post {s t : State} (h : s.SameOutside t) (b : Body) :
    s.SameOutside (t.post b) := h

theorem State.SameOutside.of_setEngine {s t : State} (h : s.SameOutside t) (e : EngineId)
    (x : Engine) : s.SameOutside (t.setEngine e x) := h

theorem State.SameOutside.trans {s t u : State} (h : s.SameOutside t) (h' : t.SameOutside u) :
    s.SameOutside u := by
  unfold State.SameOutside at *
  rw [← h]
  conv_rhs => rw [← h']

theorem State.SameOutside.sched {s t : State} (h : s.SameOutside t) : t.sched = s.sched := by
  unfold State.SameOutside at h
  rw [← h]

theorem State.SameOutside.keys {s t : State} (h : s.SameOutside t) : t.keys = s.keys := by
  unfold State.SameOutside at h
  rw [← h]

theorem State.postAll_sameOutside (s : State) (bs : List Body) : s.SameOutside (s.postAll bs) := by
  rw [State.postAll_eq]
  exact .refl s

/-- In STOPPED, no automatic job is created (R66). -/
theorem State.autoJobAtFaultExit_stopped {s : State} (h : s.sched.mode = .stopped) (c : ChannelNo) :
    s.autoJobAtFaultExit c = s :=
  (s.autoJobAtFaultExit_cases c).2 fun hs => by
    rcases hs.2 with hm | hm <;> rw [h] at hm <;> cases hm

theorem State.autoJobIfScanned_stopped {s : State} (h : s.sched.mode = .stopped) (c : ChannelNo) :
    s.autoJobIfScanned c = s :=
  (s.autoJobIfScanned_cases c).2 fun hs => by
    rcases hs.2.2 with hm | hm <;> rw [h] at hm <;> cases hm

/-- In STOPPED, no touch wakes the part (R107). -/
theorem State.touchSignal_stopped {s : State} (h : s.sched.mode = .stopped) (c : ChannelNo) :
    s.touchSignal c = s :=
  (s.touchSignal_cases c).2 fun hs => by
    have := hs.1
    rw [h] at this
    cases this

/-- In STOPPED, a claim on a channel record signals nothing (R44, R107). -/
theorem State.applyEffect_stopped {s : State} (h : s.sched.mode = .stopped) (c : ChannelNo)
    (x : SampleEffect) : s.applyEffect c x = (s.setChan c x.channel).postAll x.events := by
  have hp : ((s.setChan c x.channel).postAll x.events).sched.mode = .stopped := by
    rw [State.postAll_eq]
    exact h
  unfold State.applyEffect
  dsimp only
  rw [State.autoJobAtFaultExit_stopped hp, State.touchSignal_stopped]
  · split <;> split <;> rfl
  · split <;> exact hp

theorem State.appendResult_sameOutside (s : State) (tag : Byte) (r : CalResult) :
    s.SameOutside (s.appendResult tag r) := by
  unfold State.appendResult
  split
  · split <;> exact .refl s
  · exact .refl s

theorem State.endJob_sameOutside (s : State) (c : ChannelNo) (j : Job) (o : CalOutcome)
    (ch : Channel) (events : List Body) : s.SameOutside (s.endJob c j o ch events) := by
  have h : s.SameOutside (((s.setChan c ch).setJob c none).postAll events) :=
    .trans (t := (s.setChan c ch).setJob c none) (.refl s) (State.postAll_sameOutside _ _)
  unfold State.endJob State.handResult
  split
  · exact h
  · split
    · exact h.trans (State.appendResult_sameOutside _ _ _)
    · exact h.of_post _

theorem State.closeEntryOf_sameOutside (s : State) (origin : JobOrigin) (status : Option Status) :
    s.SameOutside (s.closeEntryOf origin status) := by
  unfold State.closeEntryOf
  split
  · exact .refl s
  · split
    · split <;> exact .refl s
    · exact .refl s

/-- In STOPPED, a sample that is delivered touches the channels, the jobs, the table and the queue alone. -/
theorem State.deliver_stopped {s : State} (h : s.sched.mode = .stopped) (r : BurstRecord)
    (x : Sample) : s.SameOutside (s.deliver r x) := by
  unfold State.deliver
  split
  · unfold State.deliverScan
    split
    · rw [State.applyEffect_stopped h]
      exact .trans (t := s.setChan r.channel _) (.refl s) (State.postAll_sameOutside _ _)
    · exact .refl s
  · unfold State.deliverCal
    split
    · split
      · split
        · exact .refl s
        · exact (State.endJob_sameOutside _ _ _ _ _ _).trans (State.closeEntryOf_sameOutside _ _ _)
      · exact .refl s
    · exact .refl s
  · unfold State.deliverMeasure
    split
    · split
      · split
        · dsimp only
          split
          · rw [State.autoJobIfScanned_stopped]
            · exact .refl s
            · exact h
          · exact .refl s
        · exact .refl s
      · exact .refl s
    · exact .refl s

/-- A burst that completes in the instant of the stop (R16). -/
theorem State.completeInStop_sameOutside {s : State} (h : s.sched.mode = .stopped)
    (m : EngineId × Nat) : s.SameOutside (s.completeInStop m) := by
  unfold State.completeInStop
  split
  · exact (State.deliver_stopped h _ _).of_setEngine _ _
  all_goals exact .refl s

/-- The bursts that complete in the instant of the stop (R16). -/
theorem State.completionsInStop_sameOutside {s : State} (h : s.sched.mode = .stopped)
    (ms : List (EngineId × Nat)) : s.SameOutside (ms.foldl State.completeInStop s) := by
  induction ms generalizing s with
  | nil => exact .refl s
  | cons m rest ih =>
    have hm := State.completeInStop_sameOutside h m
    exact hm.trans (ih (by rw [hm.sched]; exact h))

end Sys2Proof.Machine
end

