-- ==== Sys2Proof/Laws/Table.lean ====
section
/-! SUPPORT. The pending-request table: what the entry that carries a tag is, and what its replacement and
its removal leave, once for all, for a table whose tags are distinct (R168). -/

namespace Sys2Proof.Machine

/-- Two entries of the table with one tag are one entry. -/
theorem entry_unique {l : List PendingEntry} (h : (l.map PendingEntry.tag).Nodup)
    {e e' : PendingEntry} (he : e ∈ l) (he' : e' ∈ l) (ht : e'.tag = e.tag) : e' = e :=
  List.inj_on_of_nodup_map h he' he ht

/-- The entry that carries a tag. -/
theorem State.entryOfTag_of_mem {s : State} {e : PendingEntry}
    (h : (s.table.map PendingEntry.tag).Nodup) (he : e ∈ s.table) :
    s.entryOfTag e.tag = some e := by
  have hs : (s.entryOfTag e.tag).isSome := by
    unfold State.entryOfTag
    rw [List.find?_isSome]
    exact ⟨e, he, by simp⟩
  obtain ⟨e', he'⟩ := Option.isSome_iff_exists.1 hs
  have hm := List.mem_of_find?_eq_some he'
  have ht : e'.tag = e.tag := by simpa using List.find?_some he'
  rw [he', entry_unique h he hm ht]

/-- No entry carries a tag. -/
theorem State.entryOfTag_eq_none {s : State} {tag : Byte} :
    s.entryOfTag tag = none ↔ ∀ e ∈ s.table, e.tag ≠ tag := by
  simp [State.entryOfTag]

theorem not_mem_before {before after : List PendingEntry} {e : PendingEntry}
    (h : ((before ++ e :: after).map PendingEntry.tag).Nodup) :
    ∀ x ∈ before, x.tag ≠ e.tag := by
  intro x hx ht
  simp only [List.map_append, List.map_cons] at h
  exact (List.nodup_append.1 h).2.2 _ (List.mem_map_of_mem hx) _ List.mem_cons_self ht

/-- The replacement of an entry in its place. -/
theorem table_replace {before after : List PendingEntry} {e : PendingEntry} (e' : PendingEntry)
    (h : ((before ++ e :: after).map PendingEntry.tag).Nodup) :
    (before ++ e :: after).replace e e' = before ++ e' :: after := by
  have hb := not_mem_before h
  clear h
  induction before with
  | nil => simp
  | cons a rest ih =>
    have : (e == a) = false :=
      beq_eq_false_iff_ne.2 fun h => hb a List.mem_cons_self (congrArg PendingEntry.tag h.symm)
    simp only [List.cons_append, List.replace_cons, this]
    rw [ih fun x hx => hb x (List.mem_cons_of_mem _ hx)]

/-- The removal of an entry. -/
theorem table_erase {before after : List PendingEntry} {e : PendingEntry}
    (h : ((before ++ e :: after).map PendingEntry.tag).Nodup) :
    (before ++ e :: after).erase e = before ++ after := by
  have : e ∉ before := fun hm => not_mem_before h e hm rfl
  rw [List.erase_append_right _ this, List.erase_cons_head]

/-- The removal of an entry leaves the entries with other tags. -/
theorem table_erase_filter {l : List PendingEntry} {e : PendingEntry}
    (h : (l.map PendingEntry.tag).Nodup) (he : e ∈ l) :
    l.erase e = l.filter fun x => x.tag != e.tag := by
  obtain ⟨before, after, rfl⟩ := List.append_of_mem he
  rw [table_erase h, List.filter_append, List.filter_cons]
  have hb := not_mem_before h
  have ha : ∀ x ∈ after, x.tag ≠ e.tag := by
    intro x hx ht
    simp only [List.map_append, List.map_cons, List.nodup_append, List.nodup_cons] at h
    exact h.2.1.1 (ht ▸ List.mem_map_of_mem hx)
  rw [List.filter_eq_self.2 fun x hx => by simpa using hb x hx,
    List.filter_eq_self.2 fun x hx => by simpa using ha x hx]
  simp

end Sys2Proof.Machine
end

