-- ==== Sys2Proof/WellFormed.lean ====
section
/-! DEFINITION. Which commands are well formed. Every operand but one is a type that holds its legal
values and no others; the channel of MAX_ON_EXPIRY is a plain number and is checked here (R19: the
channel records are numbered 0 to 23). -/

namespace Sys2Proof

/-- A command is well formed when the channel it names exists (R19). -/
def Instr.wellFormed : Instr → Bool
  | .maxOnExpiry channel => decide (channel < 24)
  | .identify | .status | .setChannel | .getChannel | .setKey | .clearKey | .getKey => true
  | .setScan | .getScan | .setTiming | .setEvents | .setMode | .calibrate | .measure => true
  | .cancel | .restart | .unknownRequest | .settleEnd _ | .halfWindowEnd _ _ => true
  | .burstComplete _ _ | .periodExpiry | .inactivityExpiry | .writeAddress _ => true
  | .writeByte _ | .transactionEnd _ | .readAddress _ | .headRetire | .busTimeout => true
  | .powerOnReset | .pinReset | .resetRelease _ _ | .flagsByteStart => true

end Sys2Proof
end

