-- ==== Sys2Proof/Tests/Slice0.lean ====
section
/-! SUPPORT. The model's own tests: the smoke test of WellFormed, one-step tests whose expected results
come from the manual's worked examples and code tables, and for every statement with hypotheses a
witness that meets them all. -/

namespace Sys2Proof.Tests

open Sys2Proof.Machine

/-! ## States to test on -/

/-- `s` with the frame of a request, tagged 7, in the earliest FULL slot. -/
def holding (s : State) (code : Byte) (payload : List Byte) : State :=
  { s with link := { s.link with slot0 := .full ⟨7, code, payload⟩, fullOrder := [.first] } }

/-- A channel that has been calibrated, with the defaults of R20 but enabled (3.9). -/
def learned : Channel :=
  { config := { enabled := true }
    slots := [{ step := 3, baseline := some 64000, filtered := some 64000 }]
    state := .idle }

/-- A calibrated channel with a hop list of two (2.4). -/
def hopping : Channel :=
  { learned with
    config := { enabled := true, hopList := [3, 6] }
    slots :=
      [{ step := 3, baseline := some 64000, filtered := some 64376 },
        { step := 6, baseline := some 56000, filtered := some 55800 }] }

/-- A calibrated channel that is touched. -/
def touchedChannel : Channel := { learned with state := .touched, maxOn := some 10000 }

/-- An enabled channel that has not been calibrated. -/
def fresh : Channel := { config := { enabled := true }, state := .uncal }

/-- The part out of reset with some channels. -/
def withChannels (cs : List (ChannelNo × Channel)) : State :=
  cs.foldl (fun s c => s.setChan c.1 c.2) State.reset

/-- `s` with a scheduler. -/
def scheduled (s : State) (d : Scheduler) : State := { s with sched := d }

/-- A burst record on channel 0 at the defaults, as a dispatch reads it. -/
def burst (p : Purpose) (generation : BitVec 8) : BurstRecord :=
  { channel := 0, purpose := p, slot := 0, step := 3, window := 16, generation := generation }

/-- A cycle of a kind with empty lists. -/
def emptyCycle (k : CycleKind) : Cycle := { kind := k, lists := ⟨[], [], [], []⟩ }

/-- Engine A in the second half-window of a burst, and engine B in a burst of its own. -/
def measuring (s : State) (r : BurstRecord) (c1 : Nat) : State :=
  { s with
    engines :=
      ⟨.half2 r 1024 0 c1, .settle { r with channel := 6, purpose := .scan } 40, .idle, .idle⟩ }

/-- `s` in a write transaction, its slot FILLING. -/
def writing (s : State) (w : WriteRecord) (bytes : List Byte) : State :=
  { s with
    link := { s.link with slot0 := .filling bytes, transaction := .write w, busTimer := some 25 } }

/-- `s` in a read transaction. -/
def reading (s : State) (tr : Transmission) : State :=
  { s with link := { s.link with transaction := .read tr, busTimer := some 25 } }

/-- The body that a command put last in the queue. -/
def lastBody (o : Host.Outcome State Fault Refusal) : Option Body :=
  match o with
  | .next t => t.queue.entries.getLast?.map Entry.body
  | .fault _ => none
  | .refused _ => none

/-- What a question about the next state answers. -/
def after {α : Type} (o : Host.Outcome State Fault Refusal) (f : State → α) : Option α :=
  match o with
  | .next t => some (f t)
  | .fault _ => none
  | .refused _ => none

/-! ## Smoke test of WellFormed -/

theorem test_wellFormed_refuses_channel_24 : Instr.wellFormed (.maxOnExpiry 24) = false := by decide

theorem test_wellFormed_takes_channel_23 : Instr.wellFormed (.maxOnExpiry 23) = true := by decide

/-! ## One-step tests -/

/-- 9.5, worked CRC: the frame of IDENTIFY with tag 0x01 is 03 01 01 BD. -/
theorem test_crc_worked : crc [0x03, 0x01, 0x01] = 0xBD ∧ crc [0x03, 0x01, 0x01, 0xBD] = 0 := by
  decide +kernel

/-- 2.4, samples 5 and 7: quotients round toward minus infinity, deltas toward zero. -/
theorem test_filter_worked :
    ({ step := 3, filtered := some 63642 } : Slot).nextFiltered 2 3975 = 63631
      ∧ deltaOf 64000 64182 = -11 ∧ deltaOf 64000 63720 = 17 := by decide

/-- 2.4, sample 10: a reseed flag seeds the filter. -/
theorem test_reseed_worked :
    ({ step := 6, filtered := some 55800, reseed := true } : Slot).nextFiltered 2 3490 = 55840 := by
  decide

/-- 3.9, sample 2: delta 56 takes an IDLE channel into PRESSING with count 1, signalled. -/
theorem test_press_worked :
    let e := ({ learned with
      slots := [{ step := 3, baseline := some 64000, filtered := some 63600 }]
      driftCount := 21 } : Channel).scanSample 9
        { channel := 9, slot := 0, raw := 3850, noise := 0, cls := .clean }
    e.channel.state = .pressing ∧ e.channel.debounce = 1 ∧ e.channel.lastDelta = some 56
      ∧ e.channel.driftCount = 21 ∧ e.channel.maxOn = none ∧ e.wake = true := by decide

/-- 3.9, sample 5: the third press takes the channel into TOUCHED and starts 10 000 ms. -/
theorem test_touch_worked :
    let e := ({ learned with
      slots := [{ step := 3, baseline := some 64000, filtered := some 62725 }]
      state := .pressing, debounce := 2 } : Channel).scanSample 9
        { channel := 9, slot := 0, raw := 3840, noise := 0, cls := .clean }
    e.channel.state = .touched ∧ e.channel.debounce = 0 ∧ e.channel.lastDelta = some 99
      ∧ e.channel.maxOn = some 10000 := by decide

/-- 4.7, cycle 2 of the search on channel 5: code 16 gives 3955, below 4000. -/
theorem test_search_worked :
    (match ({ serial := 0, origin := .request 0x22, phase := .search, hi := 32 } : Job).accept 5 fresh
        { channel := 5, slot := 0, raw := 3955, noise := 0, cls := .clean } with
      | .goesOn j _ => (j.lo, j.hi, j.mid)
      | .ends _ _ _ => (0, 0, 0)) = (17, 32, 24) := by decide

/-- 7.7: the positions of the worked slider. -/
theorem test_slider_worked :
    sliderPosition [20, 90, 30, 0] = 90 ∧ sliderPosition [0, 60, 80, 10] = 141
      ∧ sliderPosition [0, 58, 82, 12] = 144 ∧ sliderPosition [0, 0, 0, 95] = 255
      ∧ sliderPosition [100, 40, 0, 0] = 24 := by decide

/-- R170: IDENTIFY at the straps low. -/
theorem test_identify :
    lastBody (exec .identify (holding State.reset 0x01 [])) = some (.reply 7 .ok (.identity 0x64)) := by
  decide

/-- R147, R171: after reset READY is held, and nothing else has happened. -/
theorem test_status :
    lastBody (exec .status (holding State.reset 0x02 []))
      = some (.reply 7 .ok (.status .stopped .power 1 0 0 0 0)) := by decide

/-- R31: an enabled channel whose tolerance differs loses what it has learned. -/
theorem test_setChannel :
    after
        (exec .setChannel
          (holding (withChannels [(0, learned)]) 0x10
            (0 :: ({ enabled := true, tolerance := 500 } : ChannelConfig).block 0)))
        (fun t => ((t.chan 0).state, (t.chan 0).generation, (t.chan 0).config.tolerance))
      = some (.uncal, 1, 500) := by decide

/-- R166: channel 24 does not exist. -/
theorem test_getChannel_range :
    lastBody (exec .getChannel (holding State.reset 0x11 [24])) = some (.reply 7 .range .nothing) := by
  decide

/-- R114, R174: a slide-step byte of 0 gives the default of 4. -/
theorem test_setKey :
    after (exec .setKey (holding State.reset 0x18 [6, 1, 0, 0, 4, 12, 13, 14, 15]))
        (fun t => (t.key 6).map fun r => (r.kind, r.channels, r.group, r.slideStep))
      = some (some (.slider, [12, 13, 14, 15], none, some 4)) := by decide

/-- R166: a key number of 16 is refused. -/
theorem test_clearKey_range :
    lastBody (exec .clearKey (holding State.reset 0x19 [16])) = some (.reply 7 .range .nothing) := by
  decide

/-- R175: an undefined key is reported so, in 4 bytes. -/
theorem test_getKey_undefined :
    lastBody (exec .getKey (holding State.reset 0x1A [15])) = some (.reply 7 .ok (.key 15 none))
      ∧ (Body.reply 7 .ok (.key 15 none)).bytes = [7, 0x00, 15, 0] := by decide

/-- R176: a channel in two entries is CONFLICT. -/
theorem test_setScan_conflict :
    lastBody (exec .setScan (holding State.reset 0x20 [2, 5, 0, 5, 1]))
      = some (.reply 7 .conflict .nothing) := by decide

/-- R176: the list comes back in its order. -/
theorem test_getScan :
    lastBody
        (exec .getScan
          (holding (scheduled State.reset { scanList := [⟨6, true⟩, ⟨5, false⟩] }) 0x21 []))
      = some (.reply 7 .ok (.scanList [⟨6, true⟩, ⟨5, false⟩])) := by decide

/-- R100, R177: an active period of 4 ms is below the range. -/
theorem test_setTiming_range :
    lastBody (exec .setTiming (holding State.reset 0x28 [0, 4, 0, 200, 30]))
      = some (.reply 7 .range .nothing) := by decide

/-- R138: a mask with bit 6 clear keeps the MODE event out. -/
theorem test_setEvents :
    after (exec .setEvents (holding State.reset 0x29 [0xBF]))
        (fun t => (t.queue.mask, (t.queue.offer 0 (.mode .active .request)).entries.length))
      = some (0xBF, 2) := by decide

/-- R102, R104: SET_MODE ACTIVE from STOPPED with an empty scan list starts an empty cycle that ends at
once, with the period timer running. -/
theorem test_setMode_active :
    after (exec .setMode (holding State.reset 0x2A [2]))
        (fun t => (t.sched.mode, t.sched.cycle, t.sched.periodTimer, t.sched.cycleCount,
          t.queue.entries.length))
      = some (.active, none, some 20, 1, 3) := by decide

/-- 4.7: the CALIBRATE of channels 5 and 13 creates both jobs, enters SERVICE, and sets engines A and C
to work. -/
theorem test_calibrate_worked :
    after
        (exec .calibrate
          (holding
            (withChannels
              [(5, { config := { enabled := true, windowMode := .auto, hopList := [3, 6] }
                     slots := [{ step := 3 }, { step := 6 }], state := .uncal, generation := 4 }),
                (13, { config := { enabled := true, hopList := [4] }, slots := [{ step := 4 }],
                       state := .uncal, generation := 4 })]) 0x30 [2, 5, 13]))
        (fun t => ((t.chan 5).generation, (t.chan 13).generation,
          (t.engine .a).record?.map BurstRecord.window, (t.engine .c).record?.map BurstRecord.window))
      = some (5, 5, some 32, some 16) := by decide

/-- R102, R181: a MEASURE of a calibrated channel in STOPPED. -/
theorem test_measure :
    after (exec .measure (holding (withChannels [(23, learned)]) 0x31 [23, 0, 12]))
        (fun t => (t.sched.mode, t.table.length, (t.engine .d).record?.map BurstRecord.purpose))
      = some (.service, 1, some (.measure 7)) := by decide

/-- R183: no entry carries the tag. -/
theorem test_cancel_notFound :
    lastBody (exec .cancel (holding State.reset 0x38 [9])) = some (.reply 7 .notFound .nothing) := by
  decide

/-- R184: READY with the request's tag is all that the queue holds. -/
theorem test_restart :
    after (exec .restart (holding State.reset 0x3F [])) (fun t => t.queue.entries.map Entry.body)
      = some [.ready .restart 3 (some 7)] := by decide

/-- R166: 0x03 is no CODE. -/
theorem test_unknownRequest :
    lastBody (exec .unknownRequest (holding State.reset 0x03 [])) = some (.reply 7 .badCode .nothing) := by
  decide

/-- R5, R6, R7: a settle period of 10 µs, then half-windows of 16·L µs. -/
theorem test_settleEnd :
    after
        (exec (.settleEnd .a)
          { State.reset with engines := ⟨.settle (burst .scan 0) 40, .idle, .idle, .idle⟩ })
        (fun t => t.engine .a)
      = some (.half1 (burst .scan 0) 1024 0) := by decide

/-- R6: the counter holds its top. -/
theorem test_halfWindowEnd_saturates :
    after
        (exec (.halfWindowEnd .a 20000)
          { State.reset with engines := ⟨.half1 (burst .scan 0) 1024 0, .idle, .idle, .idle⟩ })
        (fun t => t.engine .a)
      = some (.half2 (burst .scan 0) 1024 0 16383) := by decide

/-- 1.8: counts 3012 and 2998 give raw 3005 and noise 14. -/
theorem test_burstComplete_worked :
    after
        (exec (.burstComplete .a 2998)
          (scheduled (measuring (withChannels [(0, learned)]) (burst .scan 0) 3012)
            { mode := .active, cycle := some (emptyCycle .active) }))
        (fun t => ((t.chan 0).lastRaw, (t.chan 0).lastNoise, t.engine .a))
      = some (3005, 14, .idle) := by decide

/-- R96, R97: an expiry with a cycle in flight is an overrun. -/
theorem test_periodExpiry_late :
    after
        (exec .periodExpiry
          (scheduled State.reset
            { mode := .active, periodTimer := some 1, cycle := some (emptyCycle .active) }))
        (fun t => (t.sched.overruns, t.sched.periodTimer, t.sched.cycle.map Cycle.late))
      = some (1, none, some true) := by decide

/-- R109: with the note quiet and no cycle in flight the mode becomes DOZE. -/
theorem test_inactivityExpiry :
    after
        (exec .inactivityExpiry
          (scheduled State.reset { mode := .active, inactivity := .running 1, quiet := true }))
        (fun t => (t.sched.mode, t.sched.inactivity, t.sched.periodTimer))
      = some (.doze, .stopped, some 200) := by decide

/-- R59: a stuck touch. -/
theorem test_maxOnExpiry :
    after
        (exec (.maxOnExpiry 23)
          (withChannels
            [(23, { touchedChannel with
              slots := [{ step := 3, baseline := some 64000, filtered := some 62000 }] })]))
        (fun t => ((t.chan 23).state, (t.chan 23).note, (t.chan 23).slots.map Slot.baseline))
      = some (.idle, .timeout, [some 62000]) := by decide

/-- R152: the part's own address is acknowledged. -/
theorem test_writeAddress :
    after (exec (.writeAddress 0x64) State.reset) (fun t => (t.link.ack, t.link.slot0))
      = some (true, .filling []) := by decide

/-- R153: a LEN of 2 empties the slot and posts LINK. -/
theorem test_writeByte_badLen :
    after (exec (.writeByte 2) (writing State.reset { slot := .first } []))
        (fun t => (t.link.ack, t.link.slot0, t.queue.entries.map Entry.body))
      = some (false, .empty, [.ready .power 3 none, .link .badLen none]) := by decide

/-- 9.5: the IDENTIFY frame with tag 0x01 is taken whole. -/
theorem test_transactionEnd_worked :
    after
        (exec (.transactionEnd .stop)
          (writing State.reset { slot := .first, received := 4, len := some 3, tag := some 1 }
            [0x01, 0x01, 0xBD]))
        (fun t => t.link.slot0)
      = some (.full ⟨0x01, 0x01, []⟩) := by decide +kernel

/-- R140: the head becomes SENDING. -/
theorem test_readAddress :
    after (exec (.readAddress 0x64) State.reset) (fun t => t.queue.entries.map Entry.read)
      = some [.sending] := by decide

/-- R147, R162: the frame of READY after a power-on reset is LEN 6, KIND 1, SEQ 0, FLAGS 0, cause 0,
revision 3. -/
theorem test_flagsByteStart :
    after
        (exec .flagsByteStart
          (reading State.reset { ofHead := true, resent := false, frame := [6, 1, 0] }))
        (fun t => match t.link.transaction with
          | .read tr => tr.frame.take 6
          | .write _ => []
          | .none => [])
      = some [6, 0x01, 0, 0, 0, 3] := by decide

/-- R143: the head leaves the queue. -/
theorem test_headRetire :
    after
        (exec .headRetire
          (reading State.reset
            { ofHead := true, resent := false, flags := some 0, frame := [6, 1, 0] }))
        (fun t => t.queue.entries)
      = some [] := by decide

/-- R142, R158: a head that was going out becomes RESENT. -/
theorem test_busTimeout :
    after (exec .busTimeout (reading State.reset { ofHead := true, resent := false, frame := [6, 1, 0] }))
        (fun t => (t.queue.entries.map Entry.read, t.link.transaction))
      = some ([.resent], .none) := by decide

/-- R150: a fall of SDA while SCL is high is a START, and the next byte is an address byte. -/
theorem test_start :
    after (step { State.reset with lines := [.sda false] }) (fun t => (t.bus.role, t.pending))
      = some (.address, []) := by decide

/-- R150: a rise of SDA while SCL is high is a STOP. -/
theorem test_stop :
    after
        (step { State.reset with
          bus := { sda := false, started := true, bits := [false] }, lines := [.sda true] })
        (fun t => (t.bus.started, t.pending))
      = some (false, [.transactionEnd .stop]) := by decide

/-- R150: a change of SDA while SCL is low is neither. -/
theorem test_data :
    after (step { State.reset with bus := { scl := false }, lines := [.sda false] })
        (fun t => (t.bus.role, t.pending))
      = some (.off, []) := by decide

/-- R149, R150: 0x64 and the direction bit 1 are the bits 1100100 and 1. -/
theorem test_address :
    after
        (step { State.reset with
          bus :=
            { scl := false, role := .address, bits := [true, true, false, false, true, false, false] }
          lines := [.scl true] })
        (fun t => t.pending)
      = some [.readAddress 0x64] := by decide

/-- R156: after the last byte of the frame the byte sent is 0xFF. -/
theorem test_filler :
    Transmission.sentByte { ofHead := true, resent := false, frame := [6, 1, 0] } 2 = 0
      ∧ Transmission.sentByte { ofHead := true, resent := false, frame := [6, 1, 0] } 3 = 0xFF := by
  decide

/-- R150, R156: KIND 0x10 of a PRESS is sent with its bit of weight 16 fourth, and SDA is low in every other
bit. -/
theorem test_sending :
    (List.range 8).map
        (fun n => ({ reading State.reset { ofHead := true, resent := false, frame := [9, 0x10, 0] } with
          bus := { scl := false, role := .sending 1, bits := List.replicate n true } } : State).sdaLevel)
      = [false, false, false, true, false, false, false, false] := by decide

/-- R186: a pin reset that a power-on joins has the cause POWER. -/
theorem test_powerOnReset :
    after (exec .powerOnReset { State.reset with inReset := some .pin }) (fun t => (t.inReset, t.atnLow))
      = some (some .power, false) := by decide

/-- R186: a pin reset that joins a power-on keeps the cause POWER. -/
theorem test_pinReset :
    after (exec .pinReset { State.reset with inReset := some .power }) (fun t => t.inReset)
      = some (some .power) := by decide

/-- R149: with both straps high the address is 0x67. -/
theorem test_resetRelease :
    after (exec (.resetRelease true true) { State.reset with inReset := some .pin })
        (fun t => (t.link.address, t.lastCause, t.atnLow))
      = some (0x67, .pin, true) := by decide

/-! ## Witnesses of the hypotheses: requests -/

/-- A frame put in the earliest FULL slot is taken where the take rule lets it. -/
theorem takes_holding (s : State) (code : Byte) (payload : List Byte) (hr : s.inReset = none)
    (hl : s.load ≤ 30) : (holding s code payload).Takes code .first ⟨7, code, payload⟩ :=
  ⟨hr, hl, rfl, rfl, rfl⟩

theorem test_meets_EmptyQueueIsOneTick :
    State.reset.pending = [] ∧ State.reset.lines = []
      ∧ { State.reset with lines := [.scl false] }.pending = []
      ∧ { State.reset with lines := [.scl false] }.lines = .scl false :: [] := ⟨rfl, rfl, rfl, rfl⟩

theorem test_meets_OutOfPlace_request :
    requestCode .identify = some 0x01 ∧ ∀ i f, ¬ State.reset.Takes 0x01 i f :=
  ⟨rfl, fun _ _ h => nomatch h.2.2.1⟩

theorem test_meets_OutOfPlace_engines :
    (∀ e r timer, State.reset.engine e ≠ .settle r timer)
      ∧ (∀ e r timer counter, State.reset.engine e ≠ .half1 r timer counter)
      ∧ ∀ e r timer counter c1, State.reset.engine e ≠ .half2 r timer counter c1 := by
  refine ⟨?_, ?_, ?_⟩ <;> intro e <;> cases e <;> intros <;> intro h <;> cases h

theorem test_meets_OutOfPlace_timers :
    State.reset.sched.periodTimer = none ∧ (∀ ms, State.reset.sched.inactivity ≠ .running ms)
      ∧ (∀ c : ChannelNo, c.val = 24 → (State.reset.chan c).maxOn = none)
      ∧ (∀ c : ChannelNo, c.val = 23 → (State.reset.chan c).maxOn = none)
      ∧ State.reset.inReset = none :=
  ⟨rfl, fun _ h => (nomatch h), by decide, by decide, rfl⟩

theorem test_meets_OutOfPlace_bus :
    (writing State.reset { slot := .first } []).link.transaction ≠ .none
      ∧ (∀ tr, (writing State.reset { slot := .first } []).link.transaction ≠ .read tr)
      ∧ State.reset.link.transaction = .none
      ∧ ∃ tr, (reading State.reset { ofHead := true, resent := false, frame := [] }).link.transaction
        = .read tr :=
  ⟨by decide, fun _ h => (nomatch h), rfl, _, rfl⟩

theorem test_meets_RefusedRequestChangesNothing :
    ∃ t, requestCode .getChannel = some 0x11
      ∧ (holding State.reset 0x11 [24]).Takes 0x11 .first ⟨7, 0x11, [24]⟩
      ∧ exec .getChannel (holding State.reset 0x11 [24]) = .next t
      ∧ (t.queue.entries.getLast?.map Entry.body) = some (.reply 7 .range .nothing)
      ∧ Status.range ≠ .ok ∧ Status.range ≠ .accepted :=
  ⟨_, rfl, takes_holding _ _ _ rfl (by decide), rfl, by decide, by decide, by decide⟩

theorem test_meets_EachRequestAnsweredOnce :
    (∃ t, requestCode .identify = some 0x01
      ∧ (holding State.reset 0x01 []).Takes 0x01 .first ⟨7, 0x01, []⟩
      ∧ exec .identify (holding State.reset 0x01 []) = .next t)
    ∧ ∃ t, requestCodes.contains 0x00 = false
      ∧ (holding State.reset 0x00 []).Takes 0x00 .first ⟨7, 0x00, []⟩
      ∧ exec .unknownRequest (holding State.reset 0x00 []) = .next t :=
  ⟨⟨_, rfl, takes_holding _ _ _ rfl (by decide), rfl⟩,
    ⟨_, by decide, takes_holding _ _ _ rfl (by decide), rfl⟩⟩

theorem test_meets_EarliestChecksRefuse_code :
    (holding State.reset 0x40 []).Takes 0x40 .first ⟨7, 0x40, []⟩
      ∧ 0x40#8 ∉ [0x01#8, 0x02, 0x10, 0x11, 0x18, 0x19, 0x1A, 0x20, 0x21, 0x28, 0x29, 0x2A, 0x30,
        0x31, 0x38, 0x3F] :=
  ⟨takes_holding _ _ _ rfl (by decide), by decide⟩

theorem test_meets_EarliestChecksRefuse_length :
    (requestCode .identify = some 0x01 ∧ (holding State.reset 0x01 [0]).Takes 0x01 .first ⟨7, 0x01, [0]⟩
      ∧ ¬ acceptsLength .identify [0])
    ∧ requestCode .setKey = some 0x18
      ∧ (holding State.reset 0x18 [0, 0, 0, 0, 2, 0]).Takes 0x18 .first ⟨7, 0x18, [0, 0, 0, 0, 2, 0]⟩
      ∧ ¬ acceptsLength .setKey [0, 0, 0, 0, 2, 0] :=
  ⟨⟨rfl, takes_holding _ _ _ rfl (by decide), by simp [acceptsLength]⟩, rfl,
    takes_holding _ _ _ rfl (by decide), by simp [acceptsLength]⟩

theorem test_meets_Identify : (holding State.reset 0x01 []).Takes 0x01 .first ⟨7, 0x01, []⟩ :=
  takes_holding _ _ _ rfl (by decide)

theorem test_meets_Status : (holding State.reset 0x02 []).Takes 0x02 .first ⟨7, 0x02, []⟩ :=
  takes_holding _ _ _ rfl (by decide)

/-- A SET_CHANNEL payload of the defaults of R20, with bytes of no meaning at the hop steps beyond the
list. -/
def defaults (c enabled autocal : Byte) : List Byte :=
  [c, enabled, 1, 3, 0xAA, 0xBB, 0xCC, 0, 16, 0x0F, 0xA0, 0x01, 0x90, 0, 40, 0, 10, 3, 3, 2, 0, 64, 4, 32,
    0, 20, 8, 40, autocal]

theorem spells_defaults (c enabled autocal : Byte) (hc : c.toNat ≤ 23) (he : enabled.toNat ≤ 1)
    (ha : autocal.toNat ≤ 1) : SpellsConfig (defaults c enabled autocal) := by
  have : (spelledConfig (defaults 0 0 0)).InRange := by
    unfold ChannelConfig.InRange
    decide
  exact ⟨rfl, hc, he, by show (0 : Byte).toNat ≤ 1; decide, ha, this⟩

theorem test_meets_SetChannel_stored :
    let p := defaults 23 1 0
    let s := holding State.reset 0x10 p
    s.Takes 0x10 .first ⟨7, 0x10, p⟩ ∧ p.length = 29 ∧ (23 : ChannelNo).val = (p.getD 0 0).toNat
      ∧ SpellsConfig p ∧ ¬ ((s.chan 23).state = .calibrating ∨ ∃ e ∈ s.table, e.work.measured = some 23)
      ∧ (s.setChan 23 ((s.chan 23).configure (spelledConfig p))).NoAutoJob 23 :=
  ⟨takes_holding _ _ _ rfl (by decide), rfl, rfl, spells_defaults _ _ _ (by decide) (by decide) (by decide),
    by decide, Or.inr (Or.inl (by decide))⟩

theorem test_meets_SetChannel_range :
    let p := defaults 24 1 0
    let q := (defaults 0 1 0).set 16 40
    (holding State.reset 0x10 p).Takes 0x10 .first ⟨7, 0x10, p⟩ ∧ p.length = 29 ∧ ¬ SpellsConfig p
      ∧ q.length = 29 ∧ ¬ SpellsConfig q :=
  ⟨takes_holding _ _ _ rfl (by decide), rfl, fun h => absurd h.2.1 (by decide), rfl,
    fun h => absurd h.2.2.2.2.2.2.2.2.2.2.2.2.2.2.2.2.1 (by decide)⟩

theorem test_meets_SetChannel_busy :
    let p := defaults 0 1 0
    let s := holding
      { withChannels [(0, learned)] with table := [{ tag := 9, work := .measure 0 0 1 [] }] } 0x10 p
    s.Takes 0x10 .first ⟨7, 0x10, p⟩ ∧ p.length = 29 ∧ SpellsConfig p
      ∧ ((s.chan 0).state = .calibrating ∨ ∃ e ∈ s.table, e.work.measured = some 0) :=
  ⟨takes_holding _ _ _ rfl (by decide), rfl, spells_defaults _ _ _ (by decide) (by decide) (by decide),
    by decide⟩

theorem test_meets_SetChannelStartsAutomaticJob :
    ∀ m : Mode, m = .active ∨ m = .doze →
      let p := defaults 0 1 1
      let s := holding (scheduled State.reset { mode := m, scanList := [⟨0, false⟩] }) 0x10 p
      s.Takes 0x10 .first ⟨7, 0x10, p⟩ ∧ (0 : ChannelNo).val = (p.getD 0 0).toNat ∧ SpellsConfig p
        ∧ (s.chan 0).state ≠ .calibrating ∧ (∀ e ∈ s.table, e.work.measured ≠ some 0)
        ∧ ((s.chan 0).configure (spelledConfig p)).state = .uncal ∧ (spelledConfig p).autocal = true
        ∧ s.listed 0 ∧ s.scanningNow := by
  intro m hm
  refine ⟨takes_holding _ _ _ rfl ?_, rfl, spells_defaults _ _ _ (by decide) (by decide) (by decide), ?_,
    ?_, ?_, rfl, ⟨⟨0, false⟩, List.mem_singleton.2 rfl, rfl⟩, hm⟩ <;>
    rcases hm with rfl | rfl <;> decide

theorem test_meets_ConfigureFollowsComparison :
    ({} : Channel).slots.map Slot.step = ({} : Channel).config.hopList
      ∧ learned.slots.map Slot.step = learned.config.hopList := ⟨rfl, rfl⟩

theorem test_meets_GetChannel :
    (holding State.reset 0x11 [24]).Takes 0x11 .first ⟨7, 0x11, [24]⟩ ∧ 24 ≤ (24 : Byte).toNat
      ∧ (holding State.reset 0x11 [23]).Takes 0x11 .first ⟨7, 0x11, [23]⟩
      ∧ (23 : ChannelNo).val = (23 : Byte).toNat :=
  ⟨takes_holding _ _ _ rfl (by decide), by decide, takes_holding _ _ _ rfl (by decide), rfl⟩

/-- Each value that is out of range, beside the last that is in range. -/
theorem test_meets_SetKey_range :
    (holding State.reset 0x18 [16, 0, 0, 0, 1, 0]).Takes 0x18 .first ⟨7, 0x18, [16, 0, 0, 0, 1, 0]⟩
      ∧ (∀ p ∈ [[16, 0, 0, 0, 1, 0], [15, 2, 0, 0, 1, 0], [15, 0, 5, 0, 1, 0], [15, 1, 4, 33, 2, 0, 1],
          [15, 0, 4, 0, 2, 0, 1], [15, 1, 4, 32, 1, 0], [15, 0, 4, 0, 1, (24 : Byte)]],
        acceptsLength .setKey p
          ∧ (15 < (p.getD 0 0).toNat ∨ 1 < (p.getD 1 0).toNat ∨ 4 < (p.getD 2 0).toNat
            ∨ ((p.getD 1 0).toNat = 1 ∧ 32 < (p.getD 3 0).toNat)
            ∨ ((p.getD 1 0).toNat = 0 ∧ (p.getD 4 0).toNat ≠ 1)
            ∨ ((p.getD 1 0).toNat = 1 ∧ (p.getD 4 0).toNat < 2) ∨ ∃ b ∈ p.drop 5, 23 < b.toNat)) := by
  refine ⟨takes_holding _ _ _ rfl (by decide), ?_⟩
  unfold acceptsLength
  decide

theorem test_meets_SetKey_button :
    let p : List Byte := [BitVec.ofNat 8 (15 : KeyNo).val, KeyKind.button.code, 4, 0, BitVec.ofNat 8 1]
      ++ [(23 : ChannelNo)].map (fun c : ChannelNo => BitVec.ofNat 8 c.val)
    (holding State.reset 0x18 p).Takes 0x18 .first ⟨7, 0x18, p⟩ ∧ (4 : Byte).toNat ≤ 4
      ∧ (holding State.reset 0x18 p).sched.mode = .stopped ∧ [(23 : ChannelNo)].Nodup
      ∧ (∀ k' r c, k' ≠ 15 → (holding State.reset 0x18 p).key k' = some r → c ∈ [(23 : ChannelNo)] →
          c ∉ r.channels)
      ∧ (holding (scheduled State.reset { mode := .service }) 0x18 p).sched.mode ≠ .stopped := by
  refine ⟨takes_holding _ _ _ rfl (by decide), by decide, rfl, by decide, ?_, by decide⟩
  intro k' r c _ h
  have none : ∀ k, State.reset.key k = .none := by decide
  exact absurd (none k') (by rw [show State.reset.key k' = some r from h]; simp)

theorem test_meets_SetKey_slider :
    let p : List Byte := [BitVec.ofNat 8 (0 : KeyNo).val, KeyKind.slider.code, 0, 32, BitVec.ofNat 8 2]
      ++ [(1 : ChannelNo), 1].map (fun c : ChannelNo => BitVec.ofNat 8 c.val)
    (holding State.reset 0x18 p).Takes 0x18 .first ⟨7, 0x18, p⟩ ∧ (0 : Byte).toNat ≤ 4
      ∧ 2 ≤ [(1 : ChannelNo), 1].length ∧ [(1 : ChannelNo), 1].length ≤ 8 ∧ (32 : Byte).toNat ≤ 32
      ∧ (holding State.reset 0x18 p).sched.mode = .stopped ∧ ¬ [(1 : ChannelNo), 1].Nodup :=
  ⟨takes_holding _ _ _ rfl (by decide), by decide, by decide, by decide, by decide, rfl, by decide⟩

theorem test_meets_ClearKeyAndGetKey :
    (holding State.reset 0x19 [16]).Takes 0x19 .first ⟨7, 0x19, [16]⟩ ∧ 16 ≤ (16 : Byte).toNat
      ∧ (holding State.reset 0x19 [15]).Takes 0x19 .first ⟨7, 0x19, [15]⟩
      ∧ (15 : KeyNo).val = (15 : Byte).toNat
      ∧ (holding State.reset 0x1A [16]).Takes 0x1A .first ⟨7, 0x1A, [16]⟩
      ∧ (holding State.reset 0x1A [15]).Takes 0x1A .first ⟨7, 0x1A, [15]⟩ :=
  ⟨takes_holding _ _ _ rfl (by decide), by decide, takes_holding _ _ _ rfl (by decide), rfl,
    takes_holding _ _ _ rfl (by decide), takes_holding _ _ _ rfl (by decide)⟩

theorem test_meets_SetScan_range :
    ((holding State.reset 0x20 (25 :: List.replicate 50 0)).Takes 0x20 .first
        ⟨7, 0x20, 25 :: List.replicate 50 0⟩ ∧ 25 ≤ 29 ∧ (List.replicate 50 (0 : Byte)).length = 2 * 25
        ∧ 24 < 25)
      ∧ (holding State.reset 0x20 [1, 24, 0]).Takes 0x20 .first ⟨7, 0x20, [1, 24, 0]⟩
      ∧ (∃ j, j < 1 ∧ (24 ≤ ([24, 0].getD (2 * j) (0 : Byte)).toNat
          ∨ 1 < ([24, 0].getD (2 * j + 1) (0 : Byte)).toNat))
      ∧ (holding State.reset 0x20 [1, 23, 2]).Takes 0x20 .first ⟨7, 0x20, [1, 23, 2]⟩
      ∧ ∃ j, j < 1 ∧ (24 ≤ ([23, 2].getD (2 * j) (0 : Byte)).toNat
          ∨ 1 < ([23, 2].getD (2 * j + 1) (0 : Byte)).toNat) :=
  ⟨⟨takes_holding _ _ _ rfl (by decide), by decide, by decide, by decide⟩,
    takes_holding _ _ _ rfl (by decide), ⟨0, by decide⟩, takes_holding _ _ _ rfl (by decide),
    ⟨0, by decide⟩⟩

theorem test_meets_SetScan_stored :
    let es : List ScanEntry := [⟨23, true⟩, ⟨0, false⟩]
    let p := BitVec.ofNat 8 es.length
      :: es.flatMap (fun e => [BitVec.ofNat 8 e.channel.val, if e.doze then 1 else 0])
    (holding State.reset 0x20 p).Takes 0x20 .first ⟨7, 0x20, p⟩ ∧ es.length ≤ 24
      ∧ (es.map ScanEntry.channel).Nodup ∧ (holding State.reset 0x20 p).sched.mode = .stopped
      ∧ (holding State.reset 0x21 []).Takes 0x21 .first ⟨7, 0x21, []⟩ :=
  ⟨takes_holding _ _ _ rfl (by decide), by decide, by decide, rfl, takes_holding _ _ _ rfl (by decide)⟩

theorem test_meets_SetTiming :
    (holding State.reset 0x28 [0x03, 0xE8, 0x07, 0xD0, 255]).Takes 0x28 .first
        ⟨7, 0x28, [0x03, 0xE8, 0x07, 0xD0, 255]⟩
      ∧ (0x03#8 ++ 0xE8#8).toNat = 1000 ∧ (0x07#8 ++ 0xD0#8).toNat = 2000
      ∧ (holding State.reset 0x28 [0, 4, 0, 20, 0]).Takes 0x28 .first ⟨7, 0x28, [0, 4, 0, 20, 0]⟩
      ∧ (holding State.reset 0x29 [0]).Takes 0x29 .first ⟨7, 0x29, [0]⟩ :=
  ⟨takes_holding _ _ _ rfl (by decide), by decide, by decide, takes_holding _ _ _ rfl (by decide),
    takes_holding _ _ _ rfl (by decide)⟩

theorem test_meets_SetModeRefusesOrKeeps :
    (holding State.reset 0x2A [1]).Takes 0x2A .first ⟨7, 0x2A, [1]⟩
      ∧ (1 : Byte) ≠ 0 ∧ (1 : Byte) ≠ 2 ∧ (1 : Byte) ≠ 3
      ∧ (holding (scheduled State.reset { mode := .service }) 0x2A [3]).Takes 0x2A .first ⟨7, 0x2A, [3]⟩
      ∧ (holding (scheduled State.reset { mode := .service }) 0x2A [3]).sched.mode = .service
      ∧ (holding State.reset 0x2A [0]).Takes 0x2A .first ⟨7, 0x2A, [0]⟩
      ∧ (0 : Byte) = (holding State.reset 0x2A [0]).sched.mode.code
      ∧ (holding State.reset 0x2A [0]).sched.mode ≠ .service :=
  ⟨takes_holding _ _ _ rfl (by decide), by decide, by decide, by decide,
    takes_holding _ _ _ rfl (by decide), rfl, takes_holding _ _ _ rfl (by decide), rfl, by decide⟩

/-- SET_MODE ACTIVE with a SERVICE cycle in flight, and with none, the engines IDLE. -/
theorem test_meets_SetModeMakesItsChange_active :
    let within := holding
      (scheduled (withChannels [(0, learned)])
        { mode := .service, cycle := some (emptyCycle .service) }) 0x2A [2]
    let between := holding (withChannels [(0, learned)]) 0x2A [2]
    (within.Takes 0x2A .first ⟨7, 0x2A, [2]⟩ ∧ within.sched.mode = .service
        ∧ within.sched.cycle = some (emptyCycle .service))
      ∧ between.Takes 0x2A .first ⟨7, 0x2A, [2]⟩ ∧ between.sched.mode = .stopped
      ∧ between.sched.cycle = none ∧ ∀ e, between.engine e = .idle :=
  ⟨⟨takes_holding _ _ _ rfl (by decide), rfl, rfl⟩, takes_holding _ _ _ rfl (by decide), rfl, rfl,
    fun e => by cases e <;> rfl⟩

/-- SET_MODE DOZE from STOPPED, with no automatic job due and with one due. -/
theorem test_meets_SetModeMakesItsChange_started :
    let quiet := holding (withChannels [(0, learned)]) 0x2A [3]
    let due := holding
      (scheduled (withChannels [(23, { fresh with config := { enabled := true, autocal := true } })])
        { scanList := [⟨23, true⟩] }) 0x2A [3]
    (quiet.Takes 0x2A .first ⟨7, 0x2A, [3]⟩ ∧ quiet.sched.mode = .stopped ∧ quiet.dueAtStart = [])
      ∧ due.Takes 0x2A .first ⟨7, 0x2A, [3]⟩ ∧ due.sched.mode = .stopped ∧ due.dueAtStart = [23] :=
  ⟨⟨takes_holding _ _ _ rfl (by decide), rfl, by decide⟩, takes_holding _ _ _ rfl (by decide), rfl,
    by decide⟩

theorem test_meets_SetModeMakesItsChange_doze :
    let between := holding (scheduled State.reset { mode := .active }) 0x2A [3]
    let within := holding
      (scheduled State.reset { mode := .active, cycle := some (emptyCycle .active) }) 0x2A [3]
    let back := holding
      (scheduled State.reset { mode := .doze, cycle := some (emptyCycle .doze) }) 0x2A [2]
    (between.Takes 0x2A .first ⟨7, 0x2A, [3]⟩ ∧ between.sched.mode = .active ∧ between.sched.cycle = none)
      ∧ (within.Takes 0x2A .first ⟨7, 0x2A, [3]⟩ ∧ within.sched.mode = .active
        ∧ within.sched.cycle = some (emptyCycle .active))
      ∧ back.Takes 0x2A .first ⟨7, 0x2A, [2]⟩ ∧ back.sched.mode = .doze :=
  ⟨⟨takes_holding _ _ _ rfl (by decide), rfl, rfl⟩, ⟨takes_holding _ _ _ rfl (by decide), rfl, rfl⟩,
    takes_holding _ _ _ rfl (by decide), rfl⟩

/-- With no job, no CALIBRATING channel and an empty table there is no work to keep. -/
theorem workKept_of_none {s : State} (hj : ∀ c, s.job c = none)
    (hc : ∀ c, (s.chan c).state ≠ .calibrating) (ht : s.table = []) : s.WorkKept := by
  refine ⟨fun c => ?_, by simp [State.TableKept, ht], by simp [ht], fun c j tag h => ?_, by simp [ht],
    by simp [ht]⟩
  · simpa [jobFollowsState, hj c] using (hc c)
  · simp [hj c] at h

theorem test_meets_StopLeavesNothingRunning :
    let s := holding (scheduled (withChannels [(0, touchedChannel)]) { mode := .active }) 0x2A [0]
    s.WorkKept ∧ s.Takes 0x2A .first ⟨7, 0x2A, [0]⟩ ∧ s.sched.mode ≠ .stopped :=
  ⟨workKept_of_none (by decide) (by decide) rfl, takes_holding _ _ _ rfl (by decide), by decide⟩

/-- The part STOPPED with a channel in FAULT whose good run is one short, its SCAN burst in flight. -/
def leavingFault : State :=
  measuring (withChannels [(0, { fresh with state := .fault, goodRun := 7 })]) (burst .scan 0) 3012

theorem test_meets_StopLeavesNothingRunning_bursts :
    (∀ e r timer counter c1, State.reset.engine e ≠ .half2 r timer counter c1)
      ∧ leavingFault.sched.mode = .stopped ∧ leavingFault.engine .a = .half2 (burst .scan 0) 1024 0 3012
      ∧ (burst .scan 0).purpose = .scan ∧ (burst .scan 0).generation = (leavingFault.chan 0).generation
      ∧ (leavingFault.chan 0).state = .fault ∧ (leavingFault.chan 0).goodRun = 7
      ∧ (∀ kind, ((burst .scan 0).sample 64 3012 (min 16383 (0 + 2998))).cls ≠ .fault kind)
      ∧ (burst .scan 1).generation ≠ (leavingFault.chan 0).generation := by
  refine ⟨?_, rfl, rfl, rfl, by decide, by decide, by decide, fun kind => by cases kind <;> decide,
    by decide⟩
  intro e
  cases e <;> intros <;> intro h <;> cases h

/-- R44: an exit from FAULT that meets the stop makes no job and keeps its generation. -/
theorem test_stopped_faultExit :
    let t := leavingFault.completeInStop (.a, 2998)
    (t.chan 0).state = .uncal ∧ (t.chan 0).generation = 0 ∧ t.job 0 = none
      ∧ t.queue.entries.map Entry.body = [.ready .power 3 none, .fault 0 .clear] := by decide

/-- Channel 5 fresh, channels 0 and 23 calibrated. -/
def threeChannels (d : Scheduler) (table : List PendingEntry) : State :=
  { scheduled (withChannels [(0, learned), (5, fresh), (23, learned)]) d with table := table }

/-- A list of 24 channels, the longest, in a mode that leads into SERVICE, and the empty list, which names
every enabled channel, in DOZE. -/
theorem test_meets_CalibrateOpensItsEntry :
    let all := List.finRange 24
    let p := BitVec.ofNat 8 all.length :: all.map (fun c : ChannelNo => BitVec.ofNat 8 c.val)
    let s := holding (withChannels (all.map fun c => (c, fresh))) 0x30 p
    let enabled := holding (threeChannels { mode := .doze } []) 0x30 [0]
    (s.Takes 0x30 .first ⟨7, 0x30, p⟩ ∧ all.length ≤ 24 ∧ s.sched.mode = .stopped
        ∧ ¬ (all = [] ∨ ∃ c ∈ all, (s.chan c).state = .off) ∧ all.Nodup
        ∧ ¬ (∃ c ∈ all, (s.chan c).state = .calibrating) ∧ s.table = [])
      ∧ enabled.Takes 0x30 .first ⟨7, 0x30, [0]⟩
      ∧ ((List.finRange 24).filter fun c => (enabled.chan c).config.enabled) = [0, 5, 23]
      ∧ (∀ c ∈ [(0 : ChannelNo), 5, 23],
        (enabled.chan c).state ≠ .off ∧ (enabled.chan c).state ≠ .calibrating)
      ∧ enabled.table = [] ∧ enabled.sched.mode = .doze :=
  ⟨⟨takes_holding _ _ _ rfl (by decide +kernel), by decide, rfl, by decide +kernel, by decide,
      by decide +kernel, rfl⟩,
    takes_holding _ _ _ rfl (by decide), by decide, by decide, rfl, rfl⟩

/-- One payload for each refusal: RANGE; then STATE, CONFLICT, BUSY, FULL and TAGINUSE. -/
theorem test_meets_CalibrateOpensItsEntry_refused :
    let measured : List PendingEntry := [{ tag := 7, work := .measure 0 0 1 [] }]
    let full := List.replicate 4 ({ tag := 1, work := .measure 1 0 1 [] } : PendingEntry)
    let s := fun table p => holding (threeChannels { mode := .active } table) 0x30 p
    ((s [] [1, 24]).Takes 0x30 .first ⟨7, 0x30, [1, 24]⟩ ∧ [(24 : Byte)].length = (1 : Byte).toNat
        ∧ ∃ b ∈ [(24 : Byte)], 23 < b.toNat)
      ∧ ((s [] [1, 1]).chan 1).state = .off ∧ ¬ [(5 : ChannelNo), 5].Nodup
      ∧ (∃ e ∈ (s measured [1, 0]).table, e.work.measured = some 0)
      ∧ 4 ≤ (s full [1, 5]).table.length ∧ (∃ e ∈ (s measured [1, 5]).table, e.tag = 7)
      ∧ ∀ p ∈ [[1, 1], [2, 5, 5], [1, 0], [1, (5 : Byte)]],
        (s [] p).Takes 0x30 .first ⟨7, 0x30, p⟩ :=
  ⟨⟨takes_holding _ _ _ rfl (by decide), rfl, by decide⟩, by decide, by decide, by decide, by decide,
    by decide, fun p _ => takes_holding _ _ _ rfl (by show State.load (threeChannels _ _) ≤ 30; decide)⟩

theorem test_meets_MeasureOpensItsEntry :
    let s := holding (scheduled (withChannels [(23, hopping)]) { mode := .active }) 0x31 [23, 1, 12]
    let s' := holding (withChannels [(0, learned)]) 0x31 [0, 0, 1]
    (s.Takes 0x31 .first ⟨7, 0x31, [23, 1, 12]⟩ ∧ (23 : ChannelNo).val = (23 : Byte).toNat
        ∧ ¬ ((12 : Byte) = 0 ∨ 12 < (12 : Byte).toNat
          ∨ (s.chan 23).config.hopList.length ≤ (1 : Byte).toNat)
        ∧ (s.chan 23).state ≠ .off ∧ (s.chan 23).state ≠ .calibrating ∧ s.table = []
        ∧ s.sched.mode = .active)
      ∧ s'.Takes 0x31 .first ⟨7, 0x31, [0, 0, 1]⟩ ∧ (0 : Byte).toNat < (s'.chan 0).config.hopList.length
      ∧ 1 ≤ (1 : Byte).toNat ∧ (s'.chan 0).state ≠ .off ∧ (s'.chan 0).state ≠ .calibrating
      ∧ s'.sched.mode = .stopped ∧ s'.sched.cycle = none ∧ (∀ e, s'.engine e = .idle) ∧ s'.table = []
      ∧ ∀ d, s'.job d = none :=
  ⟨⟨takes_holding _ _ _ rfl (by decide), rfl, by decide, by decide, by decide, rfl, rfl⟩,
    takes_holding _ _ _ rfl (by decide), by decide, by decide, by decide, by decide, rfl, rfl,
    fun e => by cases e <;> rfl, rfl, by decide⟩

/-- A channel that does not exist; a count or a slot index out of range; a channel that is OFF. -/
theorem test_meets_MeasureOpensItsEntry_refused :
    let s := fun p => holding (threeChannels { mode := .doze } []) 0x31 p
    (∀ p ∈ [[24, 0, 1], [0, 0, 0], [0, 0, 13], [0, 1, 1], [1, 0, (1 : Byte)]],
        (s p).Takes 0x31 .first ⟨7, 0x31, p⟩)
      ∧ 23 < (24 : Byte).toNat ∧ 12 < (13 : Byte).toNat
      ∧ ((s []).chan 0).config.hopList.length ≤ (1 : Byte).toNat ∧ ((s []).chan 1).state = .off :=
  ⟨fun p _ => takes_holding _ _ _ rfl (by show State.load (threeChannels _ _) ≤ 30; decide), by decide,
    by decide, by decide, by decide⟩

/-- Channel 5 is being calibrated for a CALIBRATE with tag 9. -/
def calibratingFive : State :=
  { (withChannels [(5, { fresh with state := .calibrating, generation := 1 })]).setJob 5
      (some { serial := 0, origin := .request 9, phase := .acquire }) with
    table := [{ tag := 9, work := .calibrate [5] [] }]
    nextJob := 1
    sched := { mode := .service, cycle := some (emptyCycle .service) } }

theorem calibratingFive_job (c : ChannelNo) :
    calibratingFive.job c
      = if c = 5 then some { serial := 0, origin := .request 9, phase := .acquire } else none := by
  revert c; decide

theorem calibratingFive_workKept (code : Byte) (p : List Byte) :
    (holding calibratingFive code p).WorkKept := by
  have job : ∀ c, (holding calibratingFive code p).job c = _ := calibratingFive_job
  have table : (holding calibratingFive code p).table = [{ tag := 9, work := .calibrate [5] [] }] := rfl
  refine ⟨?_, ⟨by simp [table], by simp [table]⟩, ?_, ?_, ?_, ?_⟩
  · have : ∀ c, (calibratingFive.job c).isSome = ((calibratingFive.chan c).state == .calibrating) := by
      decide
    exact this
  · intro e he subjects results hw
    simp only [table, List.mem_singleton] at he
    subst he
    cases hw
    exact ⟨by decide, ⟨5, by decide, by decide⟩, fun c hc _ => ⟨_, by simpa using
      (by rw [job, if_pos (by simpa using hc)] : (holding calibratingFive code p).job c = _), rfl⟩⟩
  · intro c j tag h hj
    rw [job] at h
    split at h
    · cases h
      cases hj
      exact ⟨_, by rw [table]; exact List.mem_singleton.2 rfl, rfl, [5], [], rfl, by simp [*], by simp⟩
    · cases h
  · intro e he c hc
    simp only [table, List.mem_singleton] at he
    subst he
    cases hc
  · simp [table, LongWork.measured]

theorem test_meets_CancelEndsItsEntry_calibrate :
    ((holding State.reset 0x38 [9]).Takes 0x38 .first ⟨7, 0x38, [9]⟩
        ∧ ∀ e ∈ (holding State.reset 0x38 [9]).table, e.tag ≠ 9)
      ∧ (holding calibratingFive 0x38 [9]).Takes 0x38 .first ⟨7, 0x38, [9]⟩
      ∧ (holding calibratingFive 0x38 [9]).WorkKept
      ∧ { tag := 9, work := .calibrate [5] [] } ∈ (holding calibratingFive 0x38 [9]).table :=
  ⟨⟨takes_holding _ _ _ rfl (by decide), by decide⟩, takes_holding _ _ _ rfl (by decide),
    calibratingFive_workKept _ _, by decide⟩

/-- Channel 0, `ch`, is being measured for a MEASURE with tag 9, and channel 6 is being scanned, in a mode
with both on the scan list. -/
def measuringOn (ch : Channel) (m : Mode) (r : BurstRecord) : State :=
  { scheduled (measuring (withChannels [(0, ch), (6, learned)]) r 3012)
      { mode := m, cycle := some (emptyCycle .active), scanList := [⟨0, true⟩, ⟨6, true⟩] } with
    table := [{ tag := 9, work := .measure 0 0 2 [] }] }

/-- The same, channel 0 calibrated and the mode ACTIVE. -/
def measuringZero (r : BurstRecord) : State := measuringOn learned .active r

/-- An enabled channel that asks for an automatic job. -/
def wanting : Channel := { fresh with config := { enabled := true, autocal := true } }

theorem test_meets_CancelEndsItsEntry_measure :
    let waiting := holding (measuringZero (burst .scan 0)) 0x38 [9]
    let flying := holding (measuringZero (burst (.measure 9) 0)) 0x38 [9]
    (waiting.Takes 0x38 .first ⟨7, 0x38, [9]⟩ ∧ (waiting.table.map PendingEntry.tag).Nodup
        ∧ { tag := 9, work := .measure 0 0 2 [] } ∈ waiting.table ∧ ¬ waiting.autoDue 0
        ∧ ((waiting.engine (engineOf 0)).record?.map BurstRecord.purpose) ≠ some (.measure 9))
      ∧ flying.Takes 0x38 .first ⟨7, 0x38, [9]⟩
      ∧ ((flying.engine (engineOf 0)).record?.map BurstRecord.purpose) = some (.measure 9)
      ∧ flying.sched.cycle = some (emptyCycle .active)
      ∧ (emptyCycle .active).lists.get (engineOf 0) = [] ∧ EngineId.b ≠ engineOf 0
      ∧ flying.engine .b ≠ .idle :=
  ⟨⟨takes_holding _ _ _ rfl (by decide), by decide, by decide, fun h => absurd h.1 (by decide), by decide⟩,
    takes_holding _ _ _ rfl (by decide), by decide, rfl, rfl, by decide, by decide⟩

/-- An automatic job is due once the entry has gone, in ACTIVE and in DOZE. -/
theorem test_meets_CancelEndsItsEntry_due :
    ∀ m : Mode, m = .active ∨ m = .doze → ∀ purpose : Purpose, purpose = .scan ∨ purpose = .measure 9 →
      let s := holding (measuringOn wanting m (burst purpose 0)) 0x38 [9]
      let done := { s with table := s.table.filter fun e => e.tag != 9 }
      s.Takes 0x38 .first ⟨7, 0x38, [9]⟩ ∧ done.autoDue 0 ∧ done.listed 0 ∧ done.scanningNow := by
  intro m hm purpose hp
  refine ⟨takes_holding _ _ _ rfl ?_, ⟨?_, ?_, fun e he => nomatch he⟩,
    ⟨⟨0, true⟩, List.mem_cons_self, rfl⟩, hm⟩
  · rcases hm with rfl | rfl <;> rcases hp with rfl | rfl <;> decide
  all_goals rcases hm with rfl | rfl <;> rcases hp with rfl | rfl <;> decide

/-! ## Witnesses of the hypotheses: the link port -/

theorem test_meets_WriteBytes_address :
    (State.reset.inReset = none ∧ State.reset.link.transaction = .none
        ∧ State.reset.link.slot .first = .empty)
      ∧ (0x65 : BitVec 7) ≠ State.reset.link.address
      ∧ let full := { State.reset with
          link := { State.reset.link with slot0 := .full ⟨1, 1, []⟩, slot1 := .full ⟨2, 1, []⟩ } }
        full.link.transaction = .none ∧ full.link.slot0 ≠ .empty ∧ full.link.slot1 ≠ .empty := by
  decide

theorem test_meets_WriteBytes_bytes :
    ((writing State.reset { slot := .first, received := 1, refused := true } []).link.transaction
        = .write { slot := .first, received := 1, refused := true })
      ∧ ((writing State.reset { slot := .first } []).link.transaction = .write { slot := .first })
      ∧ 3 ≤ (3 : Byte).toNat ∧ (63 : Byte).toNat ≤ 63 ∧ (2 : Byte).toNat < 3 ∧ 63 < (64 : Byte).toNat
      ∧ (writing State.reset { slot := .first, received := 3, len := some 3 } [1, 1]).link.slot .first
        = .filling [1, 1]
      ∧ (3 : Nat) ≤ (3 : Byte).toNat ∧ (3 : Byte).toNat < 4 := by decide

theorem test_meets_EndOfWriteIsJudged :
    (writing State.reset { slot := .first, refused := true } []).link.transaction
        = .write { slot := .first, refused := true }
      ∧ (∀ len ∈ ({ slot := .first, received := 3, len := some 3 } : WriteRecord).len,
          ({ slot := .first, received := 3, len := some 3 } : WriteRecord).received ≤ len.toNat)
      ∧ (3 : Byte).toNat < 4
      ∧ (writing State.reset { slot := .first, received := 4, len := some 3 } [1, 1, 0xBD]).link.slot
          .first = .filling [1, 1, 0xBD]
      ∧ [1, 1, 0xBD] = (1 : Byte) :: 1 :: [] ++ [0xBD] ∧ (3 : Byte).toNat = ([] : List Byte).length + 3 := by
  decide

theorem test_meets_WrittenFrameReachesItsSlot :
    State.reset.inReset = none ∧ State.reset.link.transaction = .none
      ∧ State.reset.link.slot .second = .empty ∧ (List.replicate 60 (0 : Byte)).length ≤ 60
      ∧ State.reset.pending = [] ∧ State.reset.bus.scl = true ∧ State.reset.bus.sda = true := by decide

theorem test_meets_WrittenFrame_refused :
    (0x65 : BitVec 7) ≠ State.reset.link.address
      ∧ let full : State := { State.reset with
          link := { State.reset.link with slot0 := .full ⟨1, 1, []⟩, slot1 := .full ⟨2, 1, []⟩ } }
        full.inReset = none ∧ full.link.transaction = .none ∧ full.link.slot .first ≠ .empty
          ∧ full.link.slot .second ≠ .empty ∧ full.pending = [] ∧ full.bus.scl = true
          ∧ full.bus.sda = true := by decide

theorem test_meets_ReadEventsFollowTheHead :
    (State.reset.inReset = none ∧ State.reset.link.transaction = .none
        ∧ State.reset.queue.entries = { seq := 0, body := .ready .power 3 none } :: [])
      ∧ { State.reset with queue := { entries := [], nextSeq := 0 } }.queue.entries = []
      ∧ (0x65 : BitVec 7) ≠ State.reset.link.address
      ∧ (reading State.reset { ofHead := true, resent := false, frame := [6, 1, 0] }).link.transaction
        = .read { ofHead := true, resent := false, frame := [6, 1, 0] }
      ∧ (reading State.reset { ofHead := false, resent := false, frame := [4, 0, 0] }).link.transaction
        = .read { ofHead := false, resent := false, frame := [4, 0x00, 0] }
      ∧ (reading State.reset
            { ofHead := true, resent := false, flags := some 0, frame := [6, 1, 0] }).link.transaction
        = .read { ofHead := true, resent := false, flags := some 0, frame := [6, 1, 0] } := by decide

theorem test_meets_EndsAndTimeoutsOfTransactions :
    State.reset.link.transaction = .none
      ∧ (reading State.reset { ofHead := true, resent := false, frame := [6, 1, 0] }).queue.entries
        = { seq := 0, body := .ready .power 3 none } :: []
      ∧ (reading State.reset { ofHead := true, resent := false, frame := [], retired := true }).link.transaction
        = .read { ofHead := true, resent := false, frame := [], retired := true }
      ∧ (writing State.reset { slot := .first } []).link.transaction = .write { slot := .first } := by
  decide

theorem test_meets_WholeRead_lines :
    State.reset.pending = [] ∧ State.reset.bus.scl = true ∧ State.reset.bus.sda = true
      ∧ State.reset.readFrame.length ≤ 7 := by decide

theorem test_meets_WholeReadCarriesTheHeadOut :
    State.reset.inReset = none ∧ State.reset.link.transaction = .none
      ∧ State.reset.queue.entries = { seq := 0, body := .ready .power 3 none } :: [] := by decide

/-! ## Witnesses of the hypotheses: engines, detection, calibration -/

theorem test_meets_BurstPartsAndSample :
    { State.reset with engines := ⟨.settle (burst .scan 0) 40, .idle, .idle, .idle⟩ }.engine .a
        = .settle (burst .scan 0) 40
      ∧ { State.reset with engines := ⟨.half1 (burst .scan 0) 1024 0, .idle, .idle, .idle⟩ }.engine .a
        = .half1 (burst .scan 0) 1024 0
      ∧ (16383 ≤ 16383 ∧ 31 ≤ 16383) ∧ (classify 64 31 32 = .fault .short)
      ∧ (classify 64 16383 16382 = .fault .overrange) ∧ (classify 64 32 97 = .noisy)
      ∧ classify 64 32 96 = .clean := by decide

theorem test_meets_ScanSampleIsDelivered :
    let s := measuringZero (burst .scan 0)
    let stale := measuringZero (burst .scan 1)
    let next := { stale with
      sched := { stale.sched with cycle := some { kind := .active, lists := ⟨[.scan 0], [], [], []⟩ } } }
    (s.engine .a = .half2 (burst .scan 0) 1024 0 3012 ∧ s.sched.cycle = some (emptyCycle .active)
        ∧ EngineId.b ≠ .a ∧ s.engine .b ≠ .idle ∧ (burst .scan 0).generation = (s.chan 0).generation
        ∧ ((s.chan 0).scanSample 0 ((burst .scan 0).sample 64 3012 2998)).faultExit = false
        ∧ s.sched.mode ≠ .doze)
      ∧ (stale.engine .a = .half2 (burst .scan 1) 1024 0 3012
        ∧ (burst .scan 1).generation ≠ (stale.chan 0).generation)
      ∧ next.engine .a = .half2 (burst .scan 1) 1024 0 3012 ∧ (next.chan 0).state.isScanned = true := by
  decide

/-- A touch on a doze member in DOZE, and an exit from FAULT in ACTIVE and in DOZE. -/
theorem test_meets_ScanSampleIsDelivered_signals :
    let pressed := measuringOn learned .doze (burst .scan 0)
    let x := (burst .scan 0).sample 64 3012 (min 16383 (0 + 2998))
    ((pressed.chan 0).scanSample 0 x).wake = true ∧ pressed.sched.mode = .doze
      ∧ (∃ en ∈ pressed.sched.scanList, en.channel = 0 ∧ en.doze = true)
      ∧ ∀ m : Mode, m = .active ∨ m = .doze →
        let s := { measuringOn { wanting with state := .fault, goodRun := 7 } m (burst .scan 0) with
          table := [] }
        let effect := (s.chan 0).scanSample 0 x
        (burst .scan 0).generation = (s.chan 0).generation ∧ effect.faultExit = true
          ∧ (s.setChan 0 effect.channel).autoDue 0 ∧ s.scanningNow := by
  refine ⟨by decide, rfl, by decide, fun m hm => ?_⟩
  refine ⟨?_, ?_, ⟨?_, ?_, fun e he => nomatch he⟩, hm⟩
  all_goals rcases hm with rfl | rfl <;> decide

theorem test_meets_MeasureSampleJoinsItsEntry :
    let r := burst (.measure 9) 0
    let s := measuringZero r
    let gone := { s with table := [] }
    let last := { s with table := [{ tag := 9, work := .measure 0 0 1 [] }] }
    (s.engine .a = .half2 r 1024 0 3012 ∧ s.sched.cycle = some (emptyCycle .active)
        ∧ s.engine .b ≠ .idle ∧ (s.table.map PendingEntry.tag).Nodup
        ∧ s.table = [] ++ { tag := 9, work := .measure 0 0 2 [] } :: []
        ∧ ([] : List MeasureResult).length + 1 < 2)
      ∧ (gone.engine .a = .half2 r 1024 0 3012
        ∧ ∀ p ∈ gone.table, p.tag = 9 → p.work.measured ≠ some r.channel)
      ∧ (last.table.map PendingEntry.tag).Nodup ∧ ([] : List MeasureResult).length + 1 = 1
      ∧ (last.chan 0).state ≠ .uncal := by decide

/-- The last sample of a MEASURE on a channel that asks for an automatic job, in ACTIVE and in DOZE. -/
theorem test_meets_MeasureSampleJoinsItsEntry_due :
    ∀ m : Mode, m = .active ∨ m = .doze →
      let r := burst (.measure 9) 0
      let s := { measuringOn wanting m r with table := [{ tag := 9, work := .measure 0 0 1 [] }] }
      let done := { s with table := [] ++ [] }
      s.engine .a = .half2 r 1024 0 3012 ∧ (s.table.map PendingEntry.tag).Nodup ∧ done.autoDue 0
        ∧ done.listed 0 ∧ done.scanningNow := by
  intro m hm
  refine ⟨rfl, ?_, ⟨?_, ?_, fun e he => nomatch he⟩, ⟨⟨0, true⟩, List.mem_cons_self, rfl⟩, hm⟩
  all_goals rcases hm with rfl | rfl <;> decide

/-- Channel 0 is calibrated by job 3, whose burst ends, while channel 6 is being scanned. -/
def calibratingZero (j : Job) (generation : BitVec 8) (table : List PendingEntry) : State :=
  { (measuringOn { fresh with state := .calibrating } .active (burst (.cal 3) generation)).setJob 0
      (some j) with
    table := table }

/-- A stale sample; one that goes on; one that ends an automatic job; and one that ends a job of a
CALIBRATE that lacks another result, and of one that then has all. -/
theorem test_meets_CalibrationSampleMovesItsJob :
    let j : Job := { serial := 3, origin := .request 9, phase := .acquire, cleanCount := 7 }
    let x := (burst (.cal 3) 0).sample 64 3012 (min 16383 (0 + 2998))
    let entry := fun subjects => ({ tag := 9, work := .calibrate subjects [] } : PendingEntry)
    let s := calibratingZero j 0 [entry [0, 1]]
    let ends := fun (j : Job) => match j.accept 0 (s.chan 0) x with
      | .goesOn _ _ => none
      | .ends outcome _ _ => some outcome
    (s.engine .a = .half2 (burst (.cal 3) 0) 1024 0 3012 ∧ s.sched.cycle = some (emptyCycle .active)
        ∧ EngineId.b ≠ .a ∧ s.engine .b ≠ .idle)
      ∧ (calibratingZero j 1 []).engine .a = .half2 (burst (.cal 3) 1) 1024 0 3012
      ∧ (burst (.cal 3) 1).generation ≠ ((calibratingZero j 1 []).chan 0).generation
      ∧ s.job 0 = some j ∧ j.serial = 3 ∧ (burst (.cal 3) 0).generation = (s.chan 0).generation
      ∧ ends { j with cleanCount := 6 } = none ∧ ends j = some .low
      ∧ ends { j with origin := .automatic } = some .low
      ∧ (s.table.map PendingEntry.tag).Nodup ∧ s.table = [] ++ entry [0, 1] :: []
      ∧ (∃ d ∈ [(0 : ChannelNo), 1], d ∉ [(0 : ChannelNo)])
      ∧ ∀ d ∈ [(0 : ChannelNo)], d ∈ [(0 : ChannelNo)] := by decide

theorem test_meets_FilterAndDeltaRounding :
    ({ step := 3, filtered := some 262128 } : Slot).filtered = some 262128
      ∧ ((0 : Int) + 32768 ≤ (32768 : Nat)) ∧ ((0 : Int) + 32784 ≤ (32784 : Nat))
      ∧ ((0 : Int) ≤ (32767 : Nat)) ∧ ((32767 : Nat) : Int) < 0 + 32768
      ∧ deltaOf 32767 0 = 2047 ∧ deltaOf 0 32783 = -2048 := by decide

theorem test_meets_DetectionStateMovesByTheTable :
    learned.TimerKept ∧ learned.DebounceKept ∧ touchedChannel.TimerKept ∧ touchedChannel.DebounceKept
      ∧ ({ learned with state := .pressing, debounce := 2 } : Channel).TimerKept
      ∧ ({ learned with state := .pressing, debounce := 2 } : Channel).DebounceKept
      ∧ ({ touchedChannel with state := .releasing, debounce := 1 } : Channel).TimerKept
      ∧ ({ touchedChannel with state := .releasing, debounce := 1 } : Channel).DebounceKept := by
  unfold Channel.TimerKept Channel.DebounceKept
  decide

theorem test_meets_FaultAndNoisySamplesAreCounted :
    (learned.state.isDetecting = true
        ∧ ({ channel := 0, slot := 0, raw := 5, noise := 0, cls := .fault .short } : Sample).cls
          = .fault .short)
      ∧ ({ learned with faultRun := 2 } : Channel).faultRun + 1 = 3
      ∧ ({ learned with state := .fault, goodRun := 7 } : Channel).goodRun + 1 = 8
      ∧ hopping.state.isDetecting = true
      ∧ (hopping.slots.map Slot.step = hopping.config.hopList ∧ 1 ≤ hopping.config.hopList.length
        ∧ hopping.config.hopList.length ≤ 4 ∧ hopping.current < hopping.config.hopList.length)
      ∧ ({ channel := 0, slot := 0, raw := 5, noise := 99, cls := .noisy } : Sample).slot
        = hopping.current := by decide

theorem test_meets_CleanSampleFiltersThenJudges :
    learned.state.isDetecting = true ∧ touchedChannel.state.isDetecting = true
      ∧ learned.slots[0]? = some { step := 3, baseline := some 64000, filtered := some 64000 }
      ∧ ({ step := 3, baseline := some 64000, filtered := some 64000 } : Slot).baseline = some 64000
      ∧ ({ channel := 0, slot := 0, raw := 4000, noise := 0, cls := .clean } : Sample).cls = .clean := by
  decide

/-- R58: the eighth clean sample in a row with delta -20 or below takes the NEGATIVE re-baseline. -/
theorem test_negative_rebaseline :
    let e := ({ learned with
      slots := [{ step := 3, baseline := some 64000, filtered := some 65000 }]
      negRun := 7 } : Channel).scanSample 0
        { channel := 0, slot := 0, raw := 4062, noise := 0, cls := .clean }
    e.channel.negRun = 0 ∧ e.channel.slots.map Slot.baseline = e.channel.slots.map Slot.filtered
      ∧ e.events = [.recal 0 .negative] := by decide

theorem test_meets_RebaselineAndDriftMoveBaselines :
    hopping.slots[hopping.current]?
        = some { step := 3, baseline := some 64000, filtered := some 64376 }
      ∧ 64000 ≤ 262128 ∧ 64376 ≤ 262128 ∧ 0 < hopping.config.driftInterval
      ∧ hopping.driftCount + 1 < hopping.config.driftInterval
      ∧ ({ hopping with driftCount := 31 } : Channel).config.driftInterval
        ≤ ({ hopping with driftCount := 31 } : Channel).driftCount + 1
      ∧ ({ hopping with config := { driftInterval := 0 } } : Channel).config.driftInterval = 0 := by
  decide

theorem test_meets_MaxOnExpiryEndsAStuckTouch :
    let s := withChannels [(23, touchedChannel)]
    (s.chan 23).maxOn = some 10000 ∧ (s.chan 23).state = .touched
      ∧ (s.chan 23).slots[(s.chan 23).current]?
        = some { step := 3, baseline := some 64000, filtered := some 64000 } := by decide

theorem test_meets_SearchFindsTheSmallestCode :
    let j : Job := { serial := 0, origin := .automatic, phase := .search }
    j.phase = .search ∧ j.lo = 1 ∧ j.hi = 64 ∧ ∀ m n : Nat, m ≤ n → 247 * m ≤ 247 * n :=
  ⟨rfl, rfl, rfl, fun _ _ h => Nat.mul_le_mul_left 247 h⟩

theorem test_meets_AcquireFillsTheSlot :
    let j : Job := { serial := 0, origin := .automatic, phase := .acquire, cleanCount := 7 }
    j.phase = .acquire ∧ j.acquireSlot < hopping.slots.length
      ∧ hopping.slots.length = hopping.config.hopList.length ∧ j.cleanCount + 1 = 8
      ∧ j.acquireSlot + 1 < hopping.config.hopList.length
      ∧ j.acquireSlot + 1 = learned.config.hopList.length
      ∧ j.acquireSlot < learned.slots.length
      ∧ learned.slots.length = learned.config.hopList.length := by decide

theorem test_meets_JobsFailByFaultOrNoise :
    ({ channel := 0, slot := 0, raw := 5, noise := 0, cls := .fault .short } : Sample).cls = .fault .short
      ∧ ({ serial := 0, origin := .automatic, phase := .search, faultRun := 1 } : Job).faultRun + 1 < 3
      ∧ 3 ≤ ({ serial := 0, origin := .automatic, phase := .search, faultRun := 2 } : Job).faultRun + 1
      ∧ ({ channel := 0, slot := 0, raw := 5, noise := 99, cls := .noisy } : Sample).cls = .noisy
      ∧ 16 ≤ ({ serial := 0, origin := .automatic, phase := .search, noisyCount := 15 } : Job).noisyCount
        + 1 := by decide

/-! ## Witnesses of the hypotheses: the scheduler, the keys, the resets and the queue -/

theorem test_meets_TimerExpiriesMoveTheScheduler :
    let late := scheduled State.reset
      { mode := .active, periodTimer := some 1, cycle := some (emptyCycle .active) }
    let due := scheduled (withChannels [(0, learned)])
      { mode := .doze, periodTimer := some 1, scanList := [⟨0, true⟩] }
    let idle := scheduled State.reset { mode := .active, inactivity := .running 1, quiet := true }
    (late.sched.periodTimer = some 1 ∧ late.sched.cycle = some (emptyCycle .active))
      ∧ (due.sched.periodTimer = some 1 ∧ due.sched.cycle = none ∧ due.sched.mode = .doze
        ∧ due.engines = ⟨.idle, .idle, .idle, .idle⟩
        ∧ { channel := 0, doze := true } ∈ due.sched.scanList ∧ (due.chan 0).state.isScanned = true)
      ∧ idle.sched.inactivity = .running 1 ∧ idle.sched.mode = .active := by decide

/-- The start of a cycle with a burst to make, and of an empty one, in ACTIVE and in DOZE. -/
theorem test_meets_TimerExpiries_start :
    ∀ m : Mode, m = .active ∨ m = .doze →
      let s := scheduled (withChannels [(23, learned)])
        { mode := m, periodTimer := some 1, scanList := [⟨23, true⟩] }
      let empty := scheduled State.reset { mode := m, periodTimer := some 1 }
      (s.sched.periodTimer = some 1 ∧ s.sched.cycle = none ∧ s.scanningNow ∧ (∀ e, s.engine e = .idle)
          ∧ s.HasBurst m.cycleKind)
        ∧ empty.scanningNow ∧ ¬ empty.HasBurst m.cycleKind := by
  intro m hm
  refine ⟨⟨rfl, rfl, hm, fun e => by cases e <;> rfl, .d, .scan 23, ?_⟩, hm, ?_⟩
  · rcases hm with rfl | rfl <;> decide
  · rintro ⟨e, item, hi, -⟩
    have : (scheduled State.reset { mode := m, periodTimer := some 1 }).buildList m.cycleKind e = [] := by
      rcases hm with rfl | rfl <;> cases e <;> decide
    rw [this] at hi
    cases hi

/-- With no job, no CALIBRATING channel and MEASURE entries alone, the work is kept. -/
theorem workKept_of_measures {s : State} (hj : ∀ c, s.job c = none)
    (hc : ∀ c, (s.chan c).state ≠ .calibrating) (hm : ∀ e ∈ s.table, e.work.measured.isSome = true)
    (ht : s.TableKept) (hn : (s.table.filterMap fun e => e.work.measured).Nodup) : s.WorkKept := by
  refine ⟨fun c => ?_, ht, fun e he subjects results hw => ?_, fun c j tag h => ?_,
    fun _ _ c _ => hc c, hn⟩
  · simpa [jobFollowsState, hj c] using hc c
  · have := hm e he
    rw [hw] at this
    cases this
  · simp [hj c] at h

theorem test_meets_WorkListsFollowTheBuild :
    let s := holding calibratingFive 0x01 []
    let idle := withChannels [(0, learned), (23, learned)]
    let measured := { idle with table := [{ tag := 9, work := .measure 23 0 1 [] }] }
    s.WorkKept ∧ s.sched.SettingsKept ∧ engineOf 5 = .a
      ∧ s.job 5 = some { serial := 0, origin := .request 9, phase := .acquire }
      ∧ idle.WorkKept ∧ (idle.chan 0).state.isScanned = true ∧ (idle.chan 1).state = .off
      ∧ (∀ c, idle.job c = none)
      ∧ { tag := 9, work := .measure 23 0 1 [] } ∈ measured.table ∧ measured.WorkKept := by
  have idle : ∀ c, ((withChannels [(0, learned), (23, learned)]).chan c).state ≠ .calibrating := by
    decide
  have none : ∀ c, (withChannels [(0, learned), (23, learned)]).job c = .none := by decide
  refine ⟨calibratingFive_workKept _ _, ?_, rfl, calibratingFive_job 5, workKept_of_none none idle rfl,
    by decide, by decide, none, List.mem_singleton.2 rfl,
    workKept_of_measures none idle (by decide) ⟨by decide, by decide⟩ (by decide)⟩
  unfold Scheduler.SettingsKept
  decide

theorem test_meets_DoneCycleEndsInItsClaim :
    ∃ t, (holding (scheduled State.reset { mode := .active, periodTimer := some 1 }) 0x01 []).WorkKept
      ∧ (holding (scheduled State.reset { mode := .active, periodTimer := some 1 }) 0x01 []).cycleFinished
        = false
      ∧ exec .periodExpiry
          (holding (scheduled State.reset { mode := .active, periodTimer := some 1 }) 0x01 []) = .next t :=
  ⟨_, workKept_of_none (by decide) (by decide) rfl, by decide, rfl⟩

/-- The last burst of a cycle in a mode, with a stale sample. -/
def lastBurst (d : Scheduler) : State :=
  scheduled
    { withChannels [(0, learned)] with
      engines := ⟨.half2 (burst .scan 1) 1024 0 3012, .idle, .idle, .idle⟩ } d

theorem test_meets_CycleEndsByItsKind :
    let service := lastBurst { mode := .service, cycle := some (emptyCycle .service) }
    (service.engine .a = .half2 (burst .scan 1) 1024 0 3012 ∧ (burst .scan 1).purpose = .scan
        ∧ (burst .scan 1).generation ≠ (service.chan 0).generation
        ∧ (emptyCycle .service).lists = ⟨[], [], [], []⟩
        ∧ service.engine .b = .idle ∧ service.engine .c = .idle ∧ service.engine .d = .idle
        ∧ (∀ c, service.job c = none) ∧ service.table = [])
      ∧ (lastBurst { mode := .active, cycle := some (emptyCycle .service) }).sched.mode = .active
      ∧ (lastBurst { mode := .doze, cycle := some (emptyCycle .service) }).sched.mode = .doze := by decide

/-- A SERVICE cycle that ends with a MEASURE pending. -/
theorem test_meets_CycleEndsByItsKind_work :
    let s := { lastBurst { mode := .service, cycle := some (emptyCycle .service) } with
      table := [{ tag := 9, work := .measure 0 0 1 [] }] }
    s.sched.mode = .service ∧ s.WorkKept ∧ ∃ p ∈ s.table, p.work.measured ≠ none := by
  exact ⟨rfl,
    workKept_of_measures (by decide) (by decide) (by decide) ⟨by decide, by decide⟩ (by decide),
    _, List.mem_singleton.2 rfl, by decide⟩

/-- The counted state of an ACTIVE cycle is a quiet one with the inactivity timer expired, which leads into
DOZE; with the timer running it keeps the mode, with a mark and with none; and a DOZE cycle is counted. -/
theorem test_meets_CycleEndsByItsKind_scan :
    let s := fun (i : InactivityTimer) (late : Bool) => lastBurst
      { mode := .active, cycle := some { emptyCycle .active with late := late }, inactivity := i }
    let counted := fun (s : State) => { s.evaluateKeys with
      engines := ⟨.idle, .idle, .idle, .idle⟩
      sched := { s.sched with cycleCount := s.sched.cycleCount + 1, cycle := none } }
    let doze := lastBurst { mode := .doze, cycle := some (emptyCycle .doze), periodTimer := some 3 }
    (∃ v, State.QuietJudged (counted (s .expired true)) v ∧ v.sched.mode ≠ .active)
      ∧ (∃ v, State.QuietJudged (counted (s (.running 3) true)) v ∧ v.sched.mode = .active)
      ∧ (∃ v, State.QuietJudged (counted (s .stopped false)) v ∧ v.sched.mode = .active)
      ∧ (emptyCycle .doze).kind ≠ .active ∧ (counted doze).sched.mode = .doze ∧ doze.scanningNow := by
  intro s counted doze
  have quiet : ∀ i late, ¬ (counted (s i late)).busyChannel := by
    intro i late
    have : ∀ c, ((withChannels [(0, learned)]).evaluateKeys.chan c).state = .idle
        ∨ ((withChannels [(0, learned)]).evaluateKeys.chan c).state = .off := by decide
    rintro ⟨c, hc⟩
    have hs : ((counted (s i late)).chan c).state
        = ((withChannels [(0, learned)]).evaluateKeys.chan c).state := rfl
    rw [hs] at hc
    rcases this c with h | h <;> rw [h] at hc <;> revert hc <;> decide
  exact ⟨⟨_, ⟨fun h => (h.elim (quiet _ _) fun h => h rfl).elim, fun _ _ h => (h rfl).elim,
      fun _ _ _ => rfl⟩, by decide⟩,
    ⟨_, ⟨fun h => (h.elim (quiet _ _) fun h => h rfl).elim, fun _ _ _ => rfl, fun _ _ h => nomatch h⟩, rfl⟩,
    ⟨_, ⟨fun h => (h.elim (quiet _ _) fun h => h rfl).elim, fun _ _ _ => rfl, fun _ _ h => nomatch h⟩, rfl⟩,
    by decide, rfl, .inr rfl⟩

/-- A slider on channels 12 and 13 and two buttons in group 1. -/
def keyed : State :=
  (((withChannels [(0, touchedChannel), (1, touchedChannel), (12, touchedChannel), (13, learned)]).setKeyRecord
      0 (some { kind := .button, channels := [0], group := some 1, slideStep := none })).setKeyRecord
      1 (some { kind := .button, channels := [1], group := some 1, slideStep := none,
                state := .pressed })).setKeyRecord
      6 (some { kind := .slider, channels := [12, 13], group := none, slideStep := some 4 })

theorem test_meets_KeysMoveByCandidacy :
    keyed.key 0 = some { kind := .button, channels := [0], group := some 1, slideStep := none }
      ∧ keyed.key 1
        = some { kind := .button, channels := [1], group := some 1, slideStep := none, state := .pressed }
      ∧ keyed.key 6
        = some { kind := .slider, channels := [12, 13], group := none, slideStep := some 4 } := by decide

theorem test_meets_SliderPositionsLieOnTheScale :
    (2 ≤ [0, 100].length ∧ [0, 100].length ≤ 8 ∧ 0 < [0, 100].getD 1 0)
      ∧ 2 ≤ [0, 0, 0, 0, 0, 0, 0, 9].length ∧ [0, 0, 0, 0, 0, 0, 0, 9].length ≤ 8
      ∧ 0 < [0, 0, 0, 0, 0, 0, 0, 9].getD 7 0
      ∧ (∀ j, j < 4 → [20, 90, 90, 0].getD j 0 ≤ [20, 90, 90, 0].getD 1 0)
      ∧ (∀ j, j < 1 → [20, 90, 90, 0].getD j 0 < [20, 90, 90, 0].getD 1 0) := by decide

theorem test_meets_ResetsRestoreThePart :
    { State.reset with inReset := some .pin }.inReset = some .pin
      ∧ (holding State.reset 0x3F []).Takes 0x3F .first ⟨7, 0x3F, []⟩ :=
  ⟨rfl, takes_holding _ _ _ rfl (by decide)⟩

/-- A queue of `n` events, with events lost before. -/
def busyQueue (n lost : Nat) : State :=
  { State.reset with
    queue := { entries := List.replicate n { seq := 0, body := .link .crc none }, nextSeq := 1, lost := lost } }

theorem test_meets_OffersFollowTheAdmissionRule :
    (busyQueue 27 0).load < 28 ∧ (busyQueue 27 0).queue.lost = 0 ∧ (busyQueue 26 9).load < 27
      ∧ 0 < (busyQueue 26 9).queue.lost ∧ (busyQueue 27 9).load = 27 ∧ 28 ≤ (busyQueue 28 255).load
      ∧ (0xFE : Byte).getLsbD 0 = false
      ∧ { State.reset.queue with entries := [{ seq := 0, body := .slide 3 10 }] }.entries
        = [] ++ { seq := 0, body := .slide 3 10 } :: [] := by decide

/-- A part that is about to take an IDENTIFY. -/
def asking : State := { holding (withChannels [(0, learned)]) 0x01 [] with pending := [.identify] }

theorem test_meets_RoomIsKept :
    ∃ t, asking.RoomKept ∧ asking.queue.EventsBounded ∧ step asking = .next t :=
  ⟨_, (by decide : asking.load ≤ 32),
    (by decide : (asking.queue.entries.countP fun e => e.body.isEvent) ≤ 28), rfl⟩

theorem test_meets_QueueOrderIsKept :
    ∃ t, asking.queue.SeqConsecutive ∧ asking.queue.OnlyHeadUnderway ∧ asking.queue.OneUnsentSlide
      ∧ step asking = .next t :=
  ⟨_, ⟨rfl, trivial⟩, (by decide : ∀ e ∈ asking.queue.entries.tail, e.read = .queued),
    (by decide : ∀ k, (asking.queue.entries.countP (Entry.isQueuedSlide k)) ≤ 1), rfl⟩

theorem asking_workKept : asking.WorkKept := workKept_of_none (by decide) (by decide) rfl

theorem asking_channelsKept : asking.ChannelsKept := by
  intro c
  have each : (asking.chan c = learned ∨ asking.chan c = {}) ∧ asking.job c = none := by
    revert c; decide
  rcases each with ⟨h | h, j⟩ <;> rw [h, j]
  · refine ⟨by decide, ⟨by decide, by decide, by decide, by decide⟩, ?_, ?_, ⟨by decide, ?_⟩, ?_, by simp,
      (by decide : _ ↔ _)⟩ <;> simp [slotsFollowState, jobFollowsState, Channel.TimerKept, Slot.Filled, learned]
  · refine ⟨by decide, ⟨by decide, by decide, by decide, by decide⟩, ?_, ?_, ⟨by decide, ?_⟩, ?_, by simp,
      (by decide : _ ↔ _)⟩ <;> simp [slotsFollowState, jobFollowsState, Channel.TimerKept, Slot.Unfilled]

theorem test_meets_WorkIsKept : ∃ t, asking.WorkKept ∧ step asking = .next t :=
  ⟨_, asking_workKept, rfl⟩

theorem asking_valuesKept : asking.ValuesKept := by
  have each : ∀ c, (asking.chan c = learned ∨ asking.chan c = {}) ∧ asking.job c = none := by decide
  refine ⟨fun e => by cases e <;> trivial, fun c => ?_⟩
  obtain ⟨h, j⟩ := each c
  rw [j]
  refine ⟨?_, fun _ h => nomatch h⟩
  rcases h with h | h <;> rw [h] <;> unfold Channel.ValuesKept isCount <;> decide

theorem test_meets_ChannelRecordsAreKept :
    ∃ t, asking.ChannelsKept ∧ asking.ValuesKept ∧ step asking = .next t :=
  ⟨_, asking_channelsKept, asking_valuesKept, rfl⟩

theorem test_meets_SchedulerAndEnginesAreKept :
    ∃ t, asking.EnginesOwn ∧ asking.StillWhenStopped ∧ asking.sched.SettingsKept
      ∧ step asking = .next t := by
  refine ⟨_, ⟨fun e r h => by (cases e <;> cases h), fun cy h => nomatch h⟩, ?_, ?_, rfl⟩
  · unfold State.StillWhenStopped
    decide
  · unfold Scheduler.SettingsKept
    decide

theorem test_meets_KeysAreKept :
    ∃ t, asking.GroupsExclusive ∧ asking.KeyChannelsDistinct ∧ step asking = .next t := by
  have none : ∀ k, asking.key k = .none := by decide
  exact ⟨_, fun k _ _ _ _ h => by simp [none k] at h,
    ⟨fun k _ h => by simp [none k] at h, fun k _ _ _ _ h => by simp [none k] at h⟩, rfl⟩

end Sys2Proof.Tests
end

section
/-! What one step of the part comes to: a change of the port, the queue or the bus alone, or one effect of
a command, given with what its checks establish. Invariants of the blocks behind the port are derived from
this list and from the moves of Sys2Proof/Laws/Moves.lean, and unfold no command. -/

namespace Sys2Proof.Machine

/-! ## The effect of a command -/

/-- The blocks behind the port and the queue are the same in two states. -/
structure State.SameBlocks (s t : State) : Prop where
  engines : t.engines = s.engines
  channels : t.channels = s.channels
  jobs : t.jobs = s.jobs
  sched : t.sched = s.sched
  keys : t.keys = s.keys
  table : t.table = s.table

theorem State.SameBlocks.refl (s : State) : s.SameBlocks s := ⟨rfl, rfl, rfl, rfl, rfl, rfl⟩

/-- What a command does to the blocks behind the port, with what its checks have established. -/
inductive Effect : State → State → Prop
  | nothing (s : State) : Effect s s
  | settled (s : State) (e : EngineId) : Effect s (s.settleEnd e)
  | halved (s : State) (e : EngineId) (cycles : Nat) : Effect s (s.halfWindowEnd e cycles)
  | completed (s : State) (e : EngineId) (cycles : Nat) : Effect s (s.burstComplete e cycles)
  | period (s : State) : Effect s s.periodExpiry
  | inactivity (s : State) : Effect s s.inactivityExpiry
  | maxOn (s : State) (c : ChannelNo) : Effect s (s.maxOnExpiry c)
  | ticked (s : State) : Effect s s.tick
  | reset (s : State) (queue : Queue) (address : BitVec 7) (cause : ResetCause)
      (inReset : Option ResetCause) : Effect s (s.blocksReset queue address cause inReset)
  | configured (s : State) (c : ChannelNo) (g : ChannelConfig) (hv : g.valid = true)
      (hb : s.channelBusy c = false) :
      Effect s ((s.setChan c ((s.chan c).configure g)).autoJobIfScanned c)
  | keyWritten (s : State) (k : KeyNo) (x : Option Key) (hm : s.sched.mode = .stopped)
      (hx : ∀ r ∈ x, r.state = .released ∧ r.channels.Nodup
        ∧ ∀ c ∈ r.channels, s.listedElsewhere k c = false) :
      Effect s (s.setKeyRecord k x)
  | listWritten (s : State) (es : List ScanEntry) (hm : s.sched.mode = .stopped)
      (hl : es.length ≤ 24) (hn : (es.map ScanEntry.channel).Nodup) :
      Effect s (s.withSched fun d => { d with scanList := es })
  | timed (s : State) (active doze idle : Nat) (ha : 5 ≤ active ∧ active ≤ 1000)
      (hd : 20 ≤ doze ∧ doze ≤ 2000) (hi : idle ≤ 255) :
      Effect s
        (s.withSched fun d => { d with activePeriod := active, dozePeriod := doze, idleTime := idle })
  | moded (s : State) (m : Mode) (h : m = .doze → s.sched.mode ≠ .service) : Effect s (s.setMode m)
  | calibrated (s : State) (tag : Byte) (cs : List ChannelNo) (hne : cs ≠ []) (hn : cs.Nodup)
      (ho : ∀ c ∈ cs, (s.chan c).state ≠ .off) (hb : ∀ c ∈ cs, s.channelBusy c = false)
      (h4 : s.table.length < 4) (ht : s.entryOfTag tag = none) :
      Effect s (((s.openEntry tag (.calibrate cs [])).createJobs tag cs).workTaken)
  | measured (s : State) (tag : Byte) (x : MeasureOperands)
      (hs : x.slot < (s.chan x.channel).config.hopList.length) (ho : (s.chan x.channel).state ≠ .off)
      (hb : s.channelBusy x.channel = false) (h4 : s.table.length < 4)
      (ht : s.entryOfTag tag = none) :
      Effect s ((s.openEntry tag (.measure x.channel x.slot x.count [])).workTaken)
  | cancelled (s : State) (e : PendingEntry) (h : s.entryOfTag e.tag = some e) :
      Effect s (s.cancelEntry e)

/-- A state comes to another by one effect and an answer. -/
def State.Answers (s t : State) : Prop := ∃ v, Effect s v ∧ v.SameBlocks t

/-- A state comes to another by the taking of a slot, one effect and an answer. -/
def State.Comes (s t : State) : Prop := ∃ u, s.SameBlocks u ∧ u.Answers t

theorem Effect.answered {s t : State} (h : Effect s t) (tag : Byte) (status : Status)
    (data : ReplyData) : s.Answers (t.reply tag status data) :=
  ⟨t, h, ⟨rfl, rfl, rfl, rfl, rfl, rfl⟩⟩

theorem Effect.comes {s t : State} (h : Effect s t) : s.Comes t :=
  ⟨s, .refl s, t, h, .refl t⟩

theorem State.SameBlocks.comes {s t : State} (h : s.SameBlocks t) : s.Comes t :=
  ⟨s, .refl s, s, .nothing s, h⟩

/-! ## What the checks of a request establish -/

theorem firstFailure_eq_none {checks : List (Bool × Status)} :
    firstFailure checks = none ↔ ∀ p ∈ checks, p.1 = false := by
  induction checks with
  | nil => simp
  | cons p rest ih =>
    obtain ⟨fails, status⟩ := p
    cases fails <;> simp [ih]

theorem ChannelConfig.valid_of_parse {p : List Byte} {x : ChannelNo × ChannelConfig}
    (h : parseSetChannel p = .ok x) : x.2.valid = true := by
  unfold parseSetChannel at h
  split at h
  · split at h
    · split at h
      · rename_i hv
        cases h
        exact (Bool.and_eq_true_iff.1 hv).2
      · cases h
    · cases h
  · cases h

/-- Every entry of a scan list takes two bytes. -/
theorem scanEntryList_length :
    ∀ {bytes : List Byte} {es : List ScanEntry}, scanEntryList bytes = some es →
      bytes.length = 2 * es.length
  | [], _, h => by cases h; rfl
  | [_], _, h => nomatch h
  | _ :: _ :: _, es, h => by
    unfold scanEntryList at h
    split at h
    · rename_i hes
      split at h
      · cases h
        have := scanEntryList_length hes
        simp only [List.length_cons, this]
        omega
      · cases h
    · cases h

theorem scanList_length_of_parse {p : List Byte} {es : List ScanEntry}
    (h : parseSetScan p = .ok es) : es.length ≤ 24 := by
  unfold parseSetScan at h
  split at h
  · rename_i hok
    split at h
    · rename_i es' hes
      split at h
      · rename_i h24
        cases h
        have hl := scanEntryList_length hes
        simp only [setScanLengthOk, Bool.and_eq_true, decide_eq_true_eq, List.length_drop] at hok hl
        omega
      · cases h
    · cases h
  · cases h

theorem timing_of_parse {p : List Byte} {x : TimingOperands} (h : parseSetTiming p = .ok x) :
    (5 ≤ x.activePeriod ∧ x.activePeriod ≤ 1000) ∧ (20 ≤ x.dozePeriod ∧ x.dozePeriod ≤ 2000)
      ∧ x.idleTime ≤ 255 := by
  unfold parseSetTiming at h
  split at h
  · split at h
    · rename_i hr
      cases h
      simp only [inRange, Bool.and_eq_true, decide_eq_true_eq] at hr
      refine ⟨hr.1, hr.2, ?_⟩
      have := (p.getD 4 0).isLt
      show (p.getD 4 0).toNat ≤ 255
      omega
    · cases h
  · cases h

theorem State.notStopped_eq_false {s : State} : s.notStopped = false ↔ s.sched.mode = .stopped := by
  simp [State.notStopped]

theorem State.tableChecks_pass {s : State} {tag : Byte} (h : ∀ p ∈ s.tableChecks tag, p.1 = false) :
    s.table.length < 4 ∧ s.entryOfTag tag = none := by
  simpa [State.tableChecks] using h

/-! ## The requests -/

theorem State.takeRequest_comes (s : State) (ok : Byte → Bool) {handle : State → Frame → State}
    (h : ∀ (u : State) (f : Frame), u.Answers (handle u f)) : s.Comes (s.takeRequest ok handle) := by
  rcases s.takeRequest_cases ok handle with he | ⟨i, f, -, -, he⟩ <;> rw [he]
  · exact (State.SameBlocks.refl s).comes
  · exact ⟨s.afterTake i, ⟨rfl, rfl, rfl, rfl, rfl, rfl⟩, h _ f⟩

theorem State.perform_answers {α : Type} (s : State) (tag : Byte) (operands : Except Status α)
    (checks : α → List (Bool × Status)) {effect : α → State}
    (h : ∀ x, operands = .ok x → (∀ p ∈ checks x, p.1 = false) → s.Answers (effect x)) :
    s.Answers (s.perform tag operands checks effect) := by
  rcases s.perform_cases tag operands checks effect with ⟨status, he, -⟩ | ⟨x, ho, hc, he⟩ <;> rw [he]
  · exact (Effect.nothing s).answered tag status .nothing
  · exact h x ho (firstFailure_eq_none.1 hc)

theorem State.doSetChannel_answers (s : State) (f : Frame) : s.Answers (s.doSetChannel f) :=
  s.perform_answers _ _ _ fun x ho hc =>
    (Effect.configured s x.1 x.2 (ChannelConfig.valid_of_parse ho) (hc _ List.mem_cons_self)).answered
      f.tag .ok .nothing

theorem State.doSetKey_answers (s : State) (f : Frame) : s.Answers (s.doSetKey f) := by
  refine s.perform_answers _ _ _ fun x _ hc => ?_
  simp only [List.forall_mem_cons, State.notStopped_eq_false, hasRepeat_eq, Bool.or_eq_false_iff,
    decide_eq_false_iff_not, not_not, List.any_eq_false, Bool.not_eq_true] at hc
  obtain ⟨hm, ⟨hn, he⟩, -⟩ := hc
  refine (Effect.keyWritten s x.key (some x.record) hm fun r hr => ?_).answered f.tag .ok .nothing
  cases hr
  exact ⟨rfl, hn, he⟩

theorem State.doClearKey_answers (s : State) (f : Frame) : s.Answers (s.doClearKey f) :=
  s.perform_answers _ _ _ fun k _ hc =>
    (Effect.keyWritten s k none (State.notStopped_eq_false.1 (hc _ List.mem_cons_self))
      forall_none).answered f.tag .ok .nothing

theorem State.doSetScan_answers (s : State) (f : Frame) : s.Answers (s.doSetScan f) := by
  refine s.perform_answers _ _ _ fun es ho hc => ?_
  simp only [List.forall_mem_cons, State.notStopped_eq_false, hasRepeat_eq, decide_eq_false_iff_not,
    not_not] at hc
  obtain ⟨hm, hn, -⟩ := hc
  exact (Effect.listWritten s es hm (scanList_length_of_parse ho) hn).answered f.tag .ok .nothing

theorem State.doSetTiming_answers (s : State) (f : Frame) : s.Answers (s.doSetTiming f) :=
  s.perform_answers _ _ _ fun x ho _ =>
    have ⟨ha, hd, hi⟩ := timing_of_parse ho
    (Effect.timed s x.activePeriod x.dozePeriod x.idleTime ha hd hi).answered f.tag .ok .nothing

theorem State.doSetMode_answers (s : State) (f : Frame) : s.Answers (s.doSetMode f) := by
  refine s.perform_answers _ _ _ fun m _ hc => ?_
  have h : m = .doze → s.sched.mode ≠ .service := by simpa using hc
  exact (Effect.moded s m h).answered f.tag .ok .nothing

theorem State.doCalibrate_answers (s : State) (f : Frame) : s.Answers (s.doCalibrate f) := by
  refine s.perform_answers _ _ _ fun cs _ hc => ?_
  simp only [State.calibrateChecks, List.forall_mem_append, List.forall_mem_cons, hasRepeat_eq,
    Bool.or_eq_false_iff, List.any_eq_false, decide_eq_false_iff_not, not_not, Bool.not_eq_true,
    beq_eq_false_iff_ne, List.isEmpty_eq_false_iff] at hc
  obtain ⟨⟨⟨hne, ho⟩, hn, hb, -⟩, ht⟩ := hc
  obtain ⟨h4, ht⟩ := State.tableChecks_pass ht
  exact (Effect.calibrated s f.tag (s.namedChannels cs) hne hn ho hb h4 ht).answered f.tag .accepted
    .nothing

theorem State.doMeasure_answers (s : State) (f : Frame) : s.Answers (s.doMeasure f) := by
  refine s.perform_answers _ _ _ fun x _ hc => ?_
  simp only [State.measureChecks, List.forall_mem_append, List.forall_mem_cons,
    decide_eq_false_iff_not, Nat.not_le, beq_eq_false_iff_ne] at hc
  obtain ⟨⟨hs, ho, hb, -⟩, ht⟩ := hc
  obtain ⟨h4, ht⟩ := State.tableChecks_pass ht
  exact (Effect.measured s f.tag x hs ho hb h4 ht).answered f.tag .accepted .nothing

theorem State.doCancel_answers (s : State) (f : Frame) : s.Answers (s.doCancel f) := by
  refine s.perform_answers _ _ _ fun tag _ _ => ?_
  split
  · rename_i e he
    have ht := (State.mem_of_entryOfTag he).2
    exact (Effect.cancelled s e (by rw [ht, he])).answered f.tag .ok .nothing
  · exact (Effect.nothing s).answered f.tag .notFound .nothing

theorem State.doRestart_answers (s : State) (f : Frame) : s.Answers (s.doRestart f) :=
  s.perform_answers _ _ _ fun _ _ _ => ⟨_, .reset s _ _ _ _, .refl _⟩

/-! ## The port and the bus -/

theorem State.writeAddress_sameBlocks (s : State) (address : BitVec 7) :
    s.SameBlocks (s.writeAddress address) := by
  unfold State.writeAddress
  repeat' split
  all_goals exact ⟨rfl, rfl, rfl, rfl, rfl, rfl⟩

theorem State.writeByte_sameBlocks (s : State) (b : Byte) : s.SameBlocks (s.writeByte b) := by
  unfold State.writeByte State.writeLen State.writeNext
  repeat' split
  all_goals exact ⟨rfl, rfl, rfl, rfl, rfl, rfl⟩

theorem State.readAddress_sameBlocks (s : State) (address : BitVec 7) :
    s.SameBlocks (s.readAddress address) := by
  unfold State.readAddress
  repeat' split
  all_goals exact ⟨rfl, rfl, rfl, rfl, rfl, rfl⟩

theorem State.flagsByteStart_sameBlocks (s : State) : s.SameBlocks s.flagsByteStart := by
  unfold State.flagsByteStart
  repeat' split
  all_goals exact ⟨rfl, rfl, rfl, rfl, rfl, rfl⟩

theorem State.headRetire_sameBlocks (s : State) : s.SameBlocks s.headRetire := by
  unfold State.headRetire
  repeat' split
  all_goals exact ⟨rfl, rfl, rfl, rfl, rfl, rfl⟩

theorem State.endRead_sameBlocks (s : State) (t : Transmission) : s.SameBlocks (s.endRead t) := by
  unfold State.endRead
  dsimp only
  split <;> exact ⟨rfl, rfl, rfl, rfl, rfl, rfl⟩

theorem State.judgeWrite_sameBlocks (s : State) (w : WriteRecord) :
    s.SameBlocks (s.judgeWrite w) := by
  unfold State.judgeWrite State.discardFrame
  dsimp only
  repeat' split
  all_goals exact ⟨rfl, rfl, rfl, rfl, rfl, rfl⟩

theorem State.transactionEnd_sameBlocks (s : State) : s.SameBlocks s.transactionEnd := by
  unfold State.transactionEnd
  split
  · exact .refl s
  · split
    · exact ⟨rfl, rfl, rfl, rfl, rfl, rfl⟩
    · exact s.judgeWrite_sameBlocks _
  · exact s.endRead_sameBlocks _

theorem State.busTimeout_sameBlocks (s : State) : s.SameBlocks s.busTimeout := by
  unfold State.busTimeout
  split
  · exact .refl s
  · split <;> exact ⟨rfl, rfl, rfl, rfl, rfl, rfl⟩
  · exact s.endRead_sameBlocks _

theorem State.takeLine_sameBlocks (s : State) (x : LineChange) : s.SameBlocks (s.takeLine x) := by
  obtain ⟨b, timer, cs, h, -⟩ := s.takeLine_changes x
  rw [h]
  exact ⟨rfl, rfl, rfl, rfl, rfl, rfl⟩

/-! ## Commands and steps -/

theorem State.resetRelease_comes (s : State) (adr1 adr0 : Bool) :
    s.Comes (s.resetRelease adr1 adr0) := by
  unfold State.resetRelease
  split
  · exact (Effect.reset s _ _ _ _).comes
  · exact (State.SameBlocks.refl s).comes

/-- Every command comes to one effect. -/
theorem exec_comes {i : Instr} {s t : State} (h : exec i s = .next t) : s.Comes t := by
  have reported : ∀ {u : State} {f : Frame} {ok : Except Status Unit} {status data},
      u.Answers (u.perform f.tag ok (fun _ => []) fun _ => u.reply f.tag status data) :=
    fun {u} => u.perform_answers _ _ _ fun _ _ _ => (Effect.nothing u).answered _ _ _
  cases i with
  | identify => cases h; exact s.takeRequest_comes _ fun _ _ => reported
  | status => cases h; exact s.takeRequest_comes _ fun _ _ => reported
  | setChannel => cases h; exact s.takeRequest_comes _ State.doSetChannel_answers
  | getChannel =>
    cases h
    refine s.takeRequest_comes _ fun u f => u.perform_answers _ _ _ fun _ _ _ => ?_
    exact ⟨u, .nothing u, ⟨rfl, rfl, rfl, rfl, rfl, rfl⟩⟩
  | setKey => cases h; exact s.takeRequest_comes _ State.doSetKey_answers
  | clearKey => cases h; exact s.takeRequest_comes _ State.doClearKey_answers
  | getKey =>
    cases h
    exact s.takeRequest_comes _ fun u f => u.perform_answers _ _ _ fun _ _ _ =>
      (Effect.nothing u).answered _ _ _
  | setScan => cases h; exact s.takeRequest_comes _ State.doSetScan_answers
  | getScan => cases h; exact s.takeRequest_comes _ fun _ _ => reported
  | setTiming => cases h; exact s.takeRequest_comes _ State.doSetTiming_answers
  | setEvents =>
    cases h
    refine s.takeRequest_comes _ fun u f => u.perform_answers _ _ _ fun _ _ _ => ?_
    exact ⟨u, .nothing u, ⟨rfl, rfl, rfl, rfl, rfl, rfl⟩⟩
  | setMode => cases h; exact s.takeRequest_comes _ State.doSetMode_answers
  | calibrate => cases h; exact s.takeRequest_comes _ State.doCalibrate_answers
  | measure => cases h; exact s.takeRequest_comes _ State.doMeasure_answers
  | cancel => cases h; exact s.takeRequest_comes _ State.doCancel_answers
  | restart => cases h; exact s.takeRequest_comes _ State.doRestart_answers
  | unknownRequest =>
    cases h
    exact s.takeRequest_comes _ fun u f => (Effect.nothing u).answered f.tag .badCode .nothing
  | settleEnd e => cases h; exact (Effect.settled s e).comes
  | halfWindowEnd e cycles => cases h; exact (Effect.halved s e cycles).comes
  | burstComplete e cycles => cases h; exact (Effect.completed s e cycles).comes
  | periodExpiry => cases h; exact (Effect.period s).comes
  | inactivityExpiry => cases h; exact (Effect.inactivity s).comes
  | maxOnExpiry n =>
    cases h
    split
    · exact (Effect.maxOn s _).comes
    · exact (State.SameBlocks.refl s).comes
  | writeAddress a => cases h; exact (s.writeAddress_sameBlocks a).comes
  | writeByte b => cases h; exact (s.writeByte_sameBlocks b).comes
  | transactionEnd k => cases h; exact s.transactionEnd_sameBlocks.comes
  | readAddress a => cases h; exact (s.readAddress_sameBlocks a).comes
  | headRetire => cases h; exact s.headRetire_sameBlocks.comes
  | busTimeout => cases h; exact s.busTimeout_sameBlocks.comes
  | powerOnReset => cases h; exact (Effect.reset s _ _ _ _).comes
  | pinReset => cases h; exact (Effect.reset s _ _ _ _).comes
  | resetRelease a1 a0 => cases h; exact s.resetRelease_comes a1 a0
  | flagsByteStart => cases h; exact s.flagsByteStart_sameBlocks.comes

theorem State.idle_comes (s : State) : s.Comes s.idle := by
  unfold State.idle
  split
  · exact (Effect.ticked s).comes
  · rename_i x rest _
    have h := State.takeLine_sameBlocks { s with lines := rest } x
    exact State.SameBlocks.comes ⟨h.engines, h.channels, h.jobs, h.sched, h.keys, h.table⟩

/-- Every step comes to one effect. -/
theorem step_comes {s t : State} (h : step s = .next t) : s.Comes t := by
  unfold step at h
  split at h
  · cases h
    exact s.idle_comes
  · obtain ⟨u, hu, ha⟩ := exec_comes h
    exact ⟨u, ⟨hu.engines, hu.channels, hu.jobs, hu.sched, hu.keys, hu.table⟩, ha⟩

end Sys2Proof.Machine
end

section
/-! Relations that every step of the part keeps (O57, O58): a transitive relation that holds of every move
and of the few changes that are no move holds between a state and the next. -/

namespace Sys2Proof.Machine

/-! ## From moves to steps -/

/-- A relation between states that every change of the engines, the records, the jobs and the scheduler
keeps: the moves of the blocks, and the changes that expiries, requests and resets make by themselves. -/
structure StepRelation (R : State → State → Prop) : Prop where
  same : ∀ {s t : State}, t.engines = s.engines → t.channels = s.channels → t.jobs = s.jobs →
    t.sched = s.sched → R s t
  trans : ∀ {s t u : State}, R s t → R t u → R s u
  move : ∀ {s t : State}, Move s t → R s t
  settled : ∀ (s : State) (e : EngineId), R s (s.settleEnd e)
  halved : ∀ (s : State) (e : EngineId) (cycles : Nat), R s (s.halfWindowEnd e cycles)
  configured : ∀ (s : State) (c : ChannelNo) {g : ChannelConfig}, g.valid = true →
    (s.chan c).state ≠ .calibrating → R s (s.setChan c ((s.chan c).configure g))
  created : ∀ (s : State) (c : ChannelNo) (origin : JobOrigin), (s.chan c).state ≠ .off →
    (s.chan c).state ≠ .calibrating → R s (s.createJob c origin)
  listed : ∀ (s : State) {es : List ScanEntry}, es.length ≤ 24 → (es.map ScanEntry.channel).Nodup →
    R s (s.withSched fun d => { d with scanList := es })
  timed : ∀ (s : State) {active doze idle : Nat}, 5 ≤ active ∧ active ≤ 1000 →
    20 ≤ doze ∧ doze ≤ 2000 → idle ≤ 255 →
    R s (s.withSched fun d => { d with activePeriod := active, dozePeriod := doze, idleTime := idle })
  reset : ∀ (s : State) (queue : Queue) (address : BitVec 7) (cause : ResetCause)
    (inReset : Option ResetCause), R s (s.blocksReset queue address cause inReset)
  ticked : ∀ s : State, R s s.tick

variable {R : State → State → Prop}

theorem StepRelation.moves (h : StepRelation R) {s t : State} (hm : Moves s t) : R s t := by
  induction hm with
  | refl => exact h.same rfl rfl rfl rfl
  | tail _ hm ih => exact h.trans ih (h.move hm)

theorem State.not_calibrating_of_not_busy {s : State} {c : ChannelNo} (h : s.channelBusy c = false) :
    (s.chan c).state ≠ .calibrating := by
  simp only [State.channelBusy, Bool.or_eq_false_iff, beq_eq_false_iff_ne] at h
  exact h.1

/-- The jobs of a CALIBRATE (R65). -/
theorem StepRelation.createJobs (h : StepRelation R) (s : State) (tag : Byte) {cs : List ChannelNo}
    (hn : cs.Nodup) (ho : ∀ c ∈ cs, (s.chan c).state ≠ .off)
    (hc : ∀ c ∈ cs, (s.chan c).state ≠ .calibrating) : R s (s.createJobs tag cs) := by
  induction cs generalizing s with
  | nil => exact h.same rfl rfl rfl rfl
  | cons c rest ih =>
    obtain ⟨hcr, hr⟩ := List.nodup_cons.1 hn
    have other : ∀ d ∈ rest, (s.createJob c (.request tag)).chan d = s.chan d := fun d hd =>
      s.chan_createJob_ne _ (by rintro rfl; exact hcr hd)
    refine h.trans (h.created s c _ (ho c List.mem_cons_self) (hc c List.mem_cons_self))
      (ih _ hr (fun d hd => ?_) fun d hd => ?_)
    · rw [other d hd]
      exact ho d (List.mem_cons_of_mem c hd)
    · rw [other d hd]
      exact hc d (List.mem_cons_of_mem c hd)

theorem StepRelation.effect (h : StepRelation R) {s t : State} (he : Effect s t) : R s t := by
  cases he with
  | nothing => exact h.same rfl rfl rfl rfl
  | settled e => exact h.settled s e
  | halved e cycles => exact h.halved s e cycles
  | completed e cycles => exact h.moves (.burstComplete s e cycles)
  | period => exact h.moves (.periodExpiry s)
  | inactivity => exact h.moves (.inactivityExpiry s)
  | maxOn c => exact h.moves (.maxOnExpiry s c)
  | ticked => exact h.ticked s
  | reset queue address cause inReset => exact h.reset s queue address cause inReset
  | configured c g hv hb =>
    exact h.trans (h.configured s c hv (State.not_calibrating_of_not_busy hb))
      (h.moves (.autoJobIfScanned _ c))
  | keyWritten k x => exact h.same rfl rfl rfl rfl
  | listWritten es _ hl hn => exact h.listed s hl hn
  | timed active doze idle ha hd hi => exact h.timed s ha hd hi
  | moded m => exact h.moves (.setMode s m)
  | calibrated tag cs _ hn ho hb =>
    have opened : R s (s.openEntry tag (.calibrate cs [])) := h.same rfl rfl rfl rfl
    have created := h.createJobs (s.openEntry tag (.calibrate cs [])) tag hn ho fun c hc =>
      State.not_calibrating_of_not_busy (s := s) (hb c hc)
    exact h.trans (h.trans opened created) (h.moves (.workTaken _))
  | measured tag x =>
    have opened : R s (s.openEntry tag (.measure x.channel x.slot x.count [])) :=
      h.same rfl rfl rfl rfl
    exact h.trans opened (h.moves (.workTaken _))
  | cancelled e he => exact h.moves (.cancelEntry s e he)

theorem StepRelation.step (h : StepRelation R) {s t : State} (hs : step s = .next t) : R s t := by
  obtain ⟨u, hu, v, he, hv⟩ := step_comes hs
  exact h.trans (h.trans (h.same hu.engines hu.channels hu.jobs hu.sched) (h.effect he))
    (h.same hv.engines hv.channels hv.jobs hv.sched)

/-! ## What a move does to an engine and to the scheduler -/

theorem State.closeEntryOf_blocks (s : State) (origin : JobOrigin) (status : Option Status) :
    (s.closeEntryOf origin status).engines = s.engines
      ∧ (s.closeEntryOf origin status).channels = s.channels
      ∧ (s.closeEntryOf origin status).jobs = s.jobs
      ∧ (s.closeEntryOf origin status).sched = s.sched := by
  unfold State.closeEntryOf
  repeat' split
  all_goals exact ⟨rfl, rfl, rfl, rfl⟩

/-- The end of a job changes the record and the job of its channel (R74 to R78). -/
theorem State.endJob_blocks (s : State) (c : ChannelNo) (j : Job) (o : CalOutcome) (ch : Channel)
    (events : List Body) :
    (s.endJob c j o ch events).engines = s.engines
      ∧ (s.endJob c j o ch events).channels = ((s.setChan c ch).setJob c none).channels
      ∧ (s.endJob c j o ch events).jobs = ((s.setChan c ch).setJob c none).jobs
      ∧ (s.endJob c j o ch events).sched = s.sched := by
  unfold State.endJob State.handResult State.appendResult
  rw [State.postAll_eq]
  repeat' split
  all_goals exact ⟨rfl, rfl, rfl, rfl⟩

/-- An ended job leaves the engines and the scheduler (R79). -/
theorem State.abortJob_outside (s : State) (c : ChannelNo) :
    (s.abortJob c).engines = s.engines ∧ (s.abortJob c).sched = s.sched := by
  unfold State.abortJob
  split
  · obtain ⟨he, -, -, hs⟩ := s.endJob_blocks c ‹_› .aborted (s.chan c).calibrationFails []
    exact ⟨he, hs⟩
  · exact ⟨rfl, rfl⟩

theorem State.abortJobs_outside (s : State) (cs : List ChannelNo) :
    (cs.foldl State.abortJob s).engines = s.engines
      ∧ (cs.foldl State.abortJob s).sched = s.sched := by
  induction cs generalizing s with
  | nil => exact ⟨rfl, rfl⟩
  | cons c rest ih =>
    obtain ⟨he, hs⟩ := s.abortJob_outside c
    obtain ⟨he', hs'⟩ := ih (s.abortJob c)
    exact ⟨he'.trans he, hs'.trans hs⟩

/-- The CANCEL of a CALIBRATE ends jobs, and completes an entry (R79, R183). -/
theorem State.cancelCalibrate_blocks (s : State) (tag : Byte) :
    (s.cancelCalibrate tag).engines = s.engines
      ∧ (s.cancelCalibrate tag).channels = (s.abortJobsOfTag tag).channels
      ∧ (s.cancelCalibrate tag).jobs = (s.abortJobsOfTag tag).jobs
      ∧ (s.cancelCalibrate tag).sched = s.sched := by
  obtain ⟨he, hs⟩ := s.abortJobs_outside (s.jobsOfTag tag)
  unfold State.cancelCalibrate
  dsimp only
  split
  · exact ⟨he, rfl, rfl, hs⟩
  · exact ⟨he, rfl, rfl, hs⟩

/-- A move leaves the engines and the scheduler, or it is one of four. -/
theorem Move.outside_or {s t : State} (h : Move s t) :
    (t.engines = s.engines ∧ t.sched = s.sched)
      ∨ (∃ f, s.sched.Follows (f s.sched) ∧ t = s.withSched f)
      ∨ (∃ e, t = s.setEngine e .idle)
      ∨ (∃ e cy item rest r, s.sched.cycle = some cy ∧ (∀ x ∈ rest, x ∈ cy.lists.get e)
          ∧ item ∈ cy.lists.get e ∧ r.channel = item.channel ∧ t = (s.setList e rest).dispatch e r)
      ∨ t = s.abandonBursts := by
  cases h with
  | sched f h => exact .inr (.inl ⟨f, h, rfl⟩)
  | freed e => exact .inr (.inr (.inl ⟨e, rfl⟩))
  | taken e cy item rest r hcy h hi hr =>
    exact .inr (.inr (.inr (.inl ⟨e, cy, item, rest, r, hcy, h, hi, hr, rfl⟩)))
  | abandon => exact .inr (.inr (.inr (.inr rfl)))
  | ended c j o ch events status =>
    obtain ⟨he, -, -, hs⟩ := s.endJob_blocks c j o ch events
    obtain ⟨he', -, -, hs'⟩ := (s.endJob c j o ch events).closeEntryOf_blocks j.origin status
    exact .inl ⟨he'.trans he, hs'.trans hs⟩
  | cancelled e =>
    obtain ⟨he, -, -, hs⟩ := s.cancelCalibrate_blocks e.tag
    exact .inl ⟨he, hs⟩
  | channels f => exact .inl ⟨s.mapChannels_engines f, s.mapChannels_sched f⟩
  | post | drawn | channel | keys | create | advance | measured | completed =>
    exact .inl ⟨rfl, rfl⟩

theorem Scheduler.Follows.refl (d : Scheduler) : d.Follows d :=
  .of_cycle rfl rfl rfl rfl fun cy h => ⟨cy, h, rfl⟩

/-- A list that loses items is one that the scheduler follows. -/
theorem State.setList_follows (s : State) (e : EngineId) {l : List WorkItem}
    (h : ∀ cy, s.sched.cycle = some cy → ∀ x ∈ l, x ∈ cy.lists.get e) :
    s.sched.Follows (s.setList e l).sched := by
  refine ⟨rfl, rfl, rfl, rfl, fun cy' h' e' item hi => .inr ?_⟩
  obtain ⟨cy, hc, rfl⟩ := Option.map_eq_some_iff.1 h'
  refine ⟨cy, hc, ?_⟩
  by_cases he : e' = e
  · subst he
    rw [PerEngine.get_set_self] at hi
    exact h cy hc item hi
  · rwa [PerEngine.get_set_ne _ _ he] at hi

/-- Every move keeps the settings, and puts on a list nothing but work of its engine. -/
theorem Move.follows {s t : State} (h : Move s t) : s.sched.Follows t.sched := by
  rcases h.outside_or with
    ⟨-, hs⟩ | ⟨f, hf, rfl⟩ | ⟨e, rfl⟩ | ⟨e, cy, item, rest, r, hcy, hr, -, -, rfl⟩ | rfl
  · rw [hs]
    exact .refl _
  · exact hf
  · exact .refl _
  · refine s.setList_follows e fun cy' h' => ?_
    rw [hcy] at h'
    cases h'
    exact hr
  · exact .refl _

/-- An engine as it was, IDLE, or at the start of a burst for an item of its list. -/
def State.EngineMoves (s t : State) (e : EngineId) : Prop :=
  t.engine e = s.engine e ∨ t.engine e = .idle
    ∨ ∃ r cy item, t.engine e = .settle r 40 ∧ s.sched.cycle = some cy ∧ item ∈ cy.lists.get e
      ∧ r.channel = item.channel

theorem Move.engine {s t : State} (h : Move s t) (e : EngineId) : s.EngineMoves t e := by
  rcases h.outside_or with
    ⟨he, -⟩ | ⟨f, -, rfl⟩ | ⟨e', rfl⟩ | ⟨e', cy, item, rest, r, hcy, -, hi, hr, rfl⟩ | rfl
  · exact .inl (by rw [State.engine, he, State.engine])
  · exact .inl rfl
  · by_cases h : e = e'
    · subst h
      exact .inr (.inl (s.engine_setEngine_self e .idle))
    · exact .inl (s.engine_setEngine_ne .idle h)
  · by_cases h : e = e'
    · subst h
      exact .inr (.inr ⟨r, cy, item, State.engine_setEngine_self _ e _, hcy, hi, hr⟩)
    · exact .inl (State.engine_setEngine_ne _ _ h)
  · exact .inr (.inl (by cases e <;> rfl))

end Sys2Proof.Machine
end

section
/-! Every channel record and its job stay as the rules keep them, with every value in its range (O57). -/

namespace Sys2Proof.Machine

/-! ## One record and its job -/

/-- The values of a record and of its job lie in their ranges. -/
def recordInRange (ch : Channel) (j : Option Job) : Prop :=
  ch.ValuesKept ∧ ∀ x ∈ j, x.ValuesKept

/-- A change of a record and its job keeps them as the rules do, and, in a part whose half-counts are
saturated, keeps their values in range. -/
structure RecordStep (counts : Prop) (ch : Channel) (j : Option Job) (ch' : Channel)
    (j' : Option Job) : Prop where
  kept : channelKept ch j → channelKept ch' j'
  inRange : counts → channelKept ch j → recordInRange ch j → recordInRange ch' j'

variable {counts : Prop} {ch ch' : Channel} {j : Option Job}

theorem RecordStep.refl : RecordStep counts ch j ch j := ⟨id, fun _ _ h => h⟩

/-- A record outside CALIBRATING has no job. -/
theorem channelKept.jobless (h : channelKept ch j) (hc : ch.state ≠ .calibrating) : j = none := by
  obtain ⟨-, -, -, hj, -⟩ := h
  unfold jobFollowsState at hj
  rw [beq_eq_false_iff_ne.2 hc] at hj
  exact Option.isSome_eq_false_iff.1 hj |> Option.isNone_iff_eq_none.1

/-- A change of a record outside CALIBRATING, which has no job. -/
theorem RecordStep.of_jobless (hc : ch.state ≠ .calibrating)
    (hk : channelKept ch none → channelKept ch' none)
    (hv : counts → channelKept ch none → ch.ValuesKept → ch'.ValuesKept) :
    RecordStep counts ch j ch' j := by
  refine ⟨fun h => ?_, fun hs h hr => ?_⟩ <;> obtain rfl := h.jobless hc
  · exact hk h
  · exact ⟨hv hs h hr.1, hr.2⟩

theorem channelKept.enterCalibration (h : channelKept ch none) (ho : ch.state ≠ .off) (serial : Nat)
    (origin : JobOrigin) (phase : JobPhase) :
    channelKept ch.enterCalibration
      (some { serial := serial, origin := origin, phase := phase }) := by
  obtain ⟨hv, ⟨hm, h1, h4, hc⟩, -, -, -, -, -, hoff⟩ := h
  refine ⟨hv, ⟨?_, h1, h4, hc⟩, ?_, rfl, ⟨Nat.zero_lt_succ _, fun _ _ => rfl⟩, fun h => (nomatch h),
    ?_, .of_enabled (hoff.enabled ho) (by simp [Channel.enterCalibration])⟩
  · simpa [Channel.enterCalibration, Channel.discardBaselines, Channel.noteReconfig, Slot.emptied,
      Function.comp_def] using hm
  · rintro job ⟨⟩ -
    exact ⟨h1, by simp⟩
  · rintro job ⟨⟩
    exact ⟨le_rfl, (by decide : 1 ≤ 64), le_rfl, fun _ => (by decide : 1 < 64)⟩

/-- The creation of a job (R64). -/
theorem RecordStep.created (ho : ch.state ≠ .off) (hc : ch.state ≠ .calibrating) (serial : Nat)
    (origin : JobOrigin) (phase : JobPhase) :
    RecordStep counts ch j ch.enterCalibration
      (some { serial := serial, origin := origin, phase := phase }) := by
  refine ⟨fun h => ?_, fun _ _ hr => ⟨hr.1.enterCalibration, ?_⟩⟩
  · obtain rfl := h.jobless hc
    exact h.enterCalibration ho serial origin phase
  · rintro job ⟨⟩
    exact ⟨Nat.zero_lt_succ _, le_rfl, Nat.zero_lt_succ _, Nat.zero_lt_succ _⟩

theorem ChannelConfig.valid_hops {g : ChannelConfig} (h : g.valid = true) :
    1 ≤ g.hopList.length ∧ g.hopList.length ≤ 4 := by
  simp only [ChannelConfig.valid, inRange, Bool.and_eq_true, decide_eq_true_eq] at h
  omega

theorem ChannelConfig.hopList_eq {g h : ChannelConfig} (hd : g.measurementDiffers h = false) :
    g.hopList = h.hopList := by
  simp only [ChannelConfig.measurementDiffers, Bool.or_eq_false_iff, bne_eq_false_iff_eq] at hd
  exact hd.1.1.1.1

/-- The slots of a measurement change: those of the new hop list, holding nothing (R31). -/
theorem Channel.slotsFor_spec {g : ChannelConfig} (hm : ch.slots.map Slot.step = ch.config.hopList) :
    (ch.slotsFor g).map Slot.step = g.hopList ∧ ∀ sl ∈ ch.slotsFor g, sl.Unfilled := by
  unfold Channel.slotsFor
  split
  · rename_i he
    refine ⟨by rw [he, ← hm]; simp [Slot.emptied, Function.comp_def], fun sl' h => ?_⟩
    obtain ⟨sl, -, rfl⟩ := List.mem_map.1 h
    exact ⟨rfl, rfl⟩
  · refine ⟨by simp [buildSlots, Function.comp_def], fun sl' h => ?_⟩
    obtain ⟨n, -, rfl⟩ := List.mem_map.1 h
    exact ⟨rfl, rfl⟩

/-- A SET_CHANNEL that discards the learned state (R31). -/
theorem channelKept.reconfigure (h : channelKept ch none) {g : ChannelConfig} (hg : g.valid = true) :
    channelKept (ch.reconfigure g) none := by
  obtain ⟨h1, h4⟩ := ChannelConfig.valid_hops hg
  obtain ⟨hm, hu⟩ := Channel.slotsFor_spec (g := g) h.2.1.1
  cases he : g.enabled
  all_goals
    refine ⟨hg, ⟨hm, h1, h4, h1⟩, ?_, ?_, ⟨Nat.zero_lt_succ _, fun _ _ => rfl⟩, fun h => (nomatch h),
      forall_none, ?_⟩
    · simp only [slotsFollowState, Channel.reconfigure, he]
      exact hu
    · simp [jobFollowsState, Channel.reconfigure, he]
    · simp [Channel.OffKept, Channel.reconfigure, he]

/-- A SET_CHANNEL that enables a channel (R32). -/
theorem channelKept.enable (h : channelKept ch none) {g : ChannelConfig} (hg : g.valid = true)
    (hh : g.hopList = ch.config.hopList) (ho : ch.state = .off) (he : g.enabled = true) :
    channelKept { ch with config := g, state := .uncal } none := by
  obtain ⟨-, ⟨hm, hs⟩, hf, -, ⟨h8, h0⟩, ht, hjob, -⟩ := h
  refine ⟨hg, ⟨hm.trans hh.symm, hh ▸ hs⟩, ?_, rfl,
    ⟨h8, fun _ _ => h0 (by simp [ho]) (by simp [ho])⟩, fun hr => ?_, hjob,
    .of_enabled he (by simp)⟩
  · simp only [slotsFollowState, ho] at hf ⊢
    exact hf
  · have := ht hr
    rw [ho] at this
    cases this

/-- A SET_CHANNEL that stores the new fields and keeps all else (R33). -/
theorem channelKept.store (h : channelKept ch none) {g : ChannelConfig} (hg : g.valid = true)
    (hh : g.hopList = ch.config.hopList) (he : g.enabled = ch.config.enabled) :
    channelKept { ch with config := g } none := by
  obtain ⟨-, ⟨hm, hs⟩, hf, hj, hd, ht, hjob, ho⟩ := h
  refine ⟨hg, ⟨hm.trans hh.symm, hh ▸ hs⟩, ?_, hj, hd, ht, hjob, ?_⟩
  · unfold slotsFollowState at hf ⊢
    cases hst : ch.state <;> simp only [hst] at hf ⊢
    case calibrating => exact forall_none
    all_goals exact hf
  · exact ho.trans (by rw [he])

/-- A SET_CHANNEL (R30 to R33). -/
theorem channelKept.configure (h : channelKept ch none) {g : ChannelConfig} (hg : g.valid = true) :
    channelKept (ch.configure g) none := by
  have hoff := h.2.2.2.2.2.2.2
  unfold Channel.configure
  split
  · exact h.reconfigure hg
  · rename_i hn
    simp only [Bool.or_eq_true, not_or, Bool.not_eq_true] at hn
    obtain ⟨hd, hdis⟩ := hn
    have hh := ChannelConfig.hopList_eq hd
    split
    · rename_i hen
      simp only [Bool.and_eq_true, Bool.not_eq_true'] at hen
      exact h.enable hg hh (hoff.2 hen.1) hen.2
    · rename_i hen
      refine h.store hg hh ?_
      cases hc : ch.config.enabled <;> cases hg : g.enabled <;> simp_all

/-! ## The engines -/

theorem State.CountsKept.of_engines {s t : State} (h : s.CountsKept)
    (he : ∀ e, t.engine e = s.engine e ∨ t.engine e = .idle ∨ ∃ r n, t.engine e = .settle r n) :
    t.CountsKept := by
  intro e
  rcases he e with he | he | ⟨r, n, he⟩ <;> rw [he]
  · exact h e
  · trivial
  · trivial

theorem State.CountsKept.setEngine {s : State} (h : s.CountsKept) (e : EngineId) {r : BurstRecord}
    {timer counter c1 : Nat} {x : Engine}
    (hx : x = .half1 r timer counter ∨ x = .half2 r timer counter c1) (hc : isCount counter) (h1 : isCount c1) : (s.setEngine e x).CountsKept := by
  intro e'
  by_cases he : e' = e
  · subst he
    rw [State.engine_setEngine_self]
    rcases hx with rfl | rfl
    · exact hc
    · exact ⟨hc, h1⟩
  · rw [State.engine_setEngine_ne s x he]
    exact h e'

theorem State.CountsKept.settleEnd {s : State} (h : s.CountsKept) (e : EngineId) :
    (s.settleEnd e).CountsKept := by
  unfold State.settleEnd
  split
  · exact h.setEngine e (c1 := 0) (.inl rfl) (Nat.zero_le _) (Nat.zero_le _)
  all_goals exact h

theorem State.CountsKept.halfWindowEnd {s : State} (h : s.CountsKept) (e : EngineId) (cycles : Nat) :
    (s.halfWindowEnd e cycles).CountsKept := by
  unfold State.halfWindowEnd
  split
  · exact h.setEngine e (.inr rfl) (Nat.zero_le _) (Nat.min_le_left _ _)
  all_goals exact h

/-! ## All records -/

/-- Every record and its job are kept from one state to another, and so are the half-counts. -/
structure State.KeepsRecords (s t : State) : Prop where
  counts : s.CountsKept → t.CountsKept
  records : ∀ c, RecordStep s.CountsKept (s.chan c) (s.job c) (t.chan c) (t.job c)

theorem State.KeepsRecords.trans {s t u : State} (h : s.KeepsRecords t) (h' : t.KeepsRecords u) :
    s.KeepsRecords u :=
  ⟨h'.counts ∘ h.counts, fun c =>
    ⟨(h'.records c).kept ∘ (h.records c).kept, fun hs hk hr =>
      (h'.records c).inRange (h.counts hs) ((h.records c).kept hk) ((h.records c).inRange hs hk hr)⟩⟩

/-- A change that leaves the records and the jobs. -/
theorem State.KeepsRecords.of_records {s t : State} (hcounts : s.CountsKept → t.CountsKept)
    (hc : t.channels = s.channels) (hj : t.jobs = s.jobs) : s.KeepsRecords t := by
  refine ⟨hcounts, fun c => ?_⟩
  have hchan : t.chan c = s.chan c := by simp only [State.chan, hc]
  have hjob : t.job c = s.job c := by simp only [State.job, hj]
  rw [hchan, hjob]
  exact .refl

/-- A change of one record and its job. -/
theorem State.KeepsRecords.of_one {s t : State} (c : ChannelNo) {ch : Channel} {j : Option Job}
    (he : t.engines = s.engines) (hc : t.channels = (s.setChan c ch).channels)
    (hj : t.jobs = (s.setJob c j).jobs)
    (h : RecordStep s.CountsKept (s.chan c) (s.job c) ch j) : s.KeepsRecords t := by
  have hchan : ∀ d, t.chan d = (s.setChan c ch).chan d := fun d => by simp only [State.chan, hc]
  have hjob : ∀ d, t.job d = (s.setJob c j).job d := fun d => by simp only [State.job, hj]
  refine ⟨fun hs => hs.of_engines fun e => .inl (by simp only [State.engine, he]), fun d => ?_⟩
  rw [hchan, hjob]
  by_cases hd : d = c
  · subst hd
    rwa [State.chan_setChan_self, State.job_setJob_self]
  · rw [State.chan_setChan_ne s _ hd, State.job_setJob_ne s _ hd]
    exact .refl

theorem State.setJob_job_self (s : State) (c : ChannelNo) : s.setJob c (s.job c) = s := by
  simp [State.job, State.setJob]

theorem State.createJob_keepsRecords (s : State) (c : ChannelNo) (origin : JobOrigin)
    (ho : (s.chan c).state ≠ .off) (hc : (s.chan c).state ≠ .calibrating) :
    s.KeepsRecords (s.createJob c origin) :=
  .of_one c rfl rfl rfl (.created ho hc s.nextJob origin _)

/-- A record that changes outside CALIBRATING. -/
theorem State.setChan_keepsRecords (s : State) (c : ChannelNo) {ch : Channel}
    (hc : (s.chan c).state ≠ .calibrating) (hk : channelKept (s.chan c) none → channelKept ch none)
    (hv : s.CountsKept → channelKept (s.chan c) none → (s.chan c).ValuesKept → ch.ValuesKept) :
    s.KeepsRecords (s.setChan c ch) :=
  .of_one c (j := s.job c) rfl rfl (by rw [State.setJob_job_self]; rfl) (.of_jobless hc hk hv)

/-- The end of a job (R74 to R79). -/
theorem State.endJob_keepsRecords {s : State} {c : ChannelNo} {j : Job} (hj : s.job c = some j)
    (o : CalOutcome) {ch : Channel} (events : List Body)
    (hk : channelKept (s.chan c) (some j) → channelKept ch none)
    (hv : s.CountsKept → j.ValuesKept → (s.chan c).ValuesKept → ch.ValuesKept) :
    s.KeepsRecords (s.endJob c j o ch events) := by
  obtain ⟨he, hc, hjobs, -⟩ := s.endJob_blocks c j o ch events
  refine .of_one c he hc hjobs ?_
  rw [hj]
  exact ⟨hk, fun hs _ hr => ⟨hv hs (hr.2 j rfl) hr.1, forall_none⟩⟩

theorem State.abortJob_keepsRecords (s : State) (c : ChannelNo) : s.KeepsRecords (s.abortJob c) := by
  unfold State.abortJob
  split
  · exact State.endJob_keepsRecords ‹_› _ _ (fun h => h.calibrationFails)
      fun _ _ h => h.calibrationFails
  · exact .of_records id rfl rfl

theorem State.abortJobs_keepsRecords (s : State) (cs : List ChannelNo) :
    s.KeepsRecords (cs.foldl State.abortJob s) := by
  induction cs generalizing s with
  | nil => exact .of_records id rfl rfl
  | cons c rest ih => exact (s.abortJob_keepsRecords c).trans (ih _)

theorem State.wantsAutoJob_uncal {s : State} {c : ChannelNo} (h : s.wantsAutoJob c = true) :
    (s.chan c).state = .uncal := ((s.wantsAutoJob_iff c).1 h).1

theorem State.KeepsRecords.move {s t : State} (h : Move s t) : s.KeepsRecords t := by
  have hcounts : s.CountsKept → t.CountsKept := fun hs => hs.of_engines fun e => by
    rcases h.engine e with he | he | ⟨r, _, _, he, -⟩
    · exact .inl he
    · exact .inr (.inl he)
    · exact .inr (.inr ⟨r, _, he⟩)
  cases h with
  | channel c ch hn _ hk hv => exact s.setChan_keepsRecords c hn hk hv
  | channels f _ hk hv =>
    refine ⟨hcounts, fun c => ?_⟩
    have hjob : (s.mapChannels f).job c = s.job c := by
      simp only [State.job, State.mapChannels_jobs]
    rw [State.chan_mapChannels, hjob]
    exact ⟨hk c _, fun _ _ hr => ⟨hv c hr.1, hr.2⟩⟩
  | create c hw =>
    have hu := State.wantsAutoJob_uncal hw
    exact s.createJob_keepsRecords c .automatic (by simp [hu]) (by simp [hu])
  | advance c j j' ch hj _ _ hk hv =>
    refine .of_one c rfl rfl rfl ?_
    rw [hj]
    refine ⟨hk, fun hs _ hr => ?_⟩
    obtain ⟨hj', hch⟩ := hv hs (hr.2 j rfl) hr.1
    refine ⟨hch, ?_⟩
    rintro x ⟨⟩
    exact hj'
  | ended c j o ch events status hj _ _ hk hv =>
    obtain ⟨he, hc, hjobs, -⟩ := (s.endJob c j o ch events).closeEntryOf_blocks j.origin status
    refine (State.endJob_keepsRecords hj o events hk hv).trans (.of_records ?_ hc hjobs)
    exact fun h => h.of_engines fun e => .inl (by simp only [State.engine, he])
  | cancelled e =>
    obtain ⟨-, hc, hjobs, -⟩ := s.cancelCalibrate_blocks e.tag
    have aborted := s.abortJobs_keepsRecords (s.jobsOfTag e.tag)
    refine ⟨hcounts, fun c => ?_⟩
    have hchan : (s.cancelCalibrate e.tag).chan c = (s.abortJobsOfTag e.tag).chan c := by
      simp only [State.chan, hc]
    have hjob : (s.cancelCalibrate e.tag).job c = (s.abortJobsOfTag e.tag).job c := by
      simp only [State.job, hjobs]
    rw [hchan, hjob]
    exact aborted.records c
  | post | sched | freed | taken | abandon | drawn | keys | measured | completed =>
    exact .of_records hcounts rfl rfl

theorem State.KeepsRecords.reset (s : State) (queue : Queue) (address : BitVec 7) (cause : ResetCause)
    (inReset : Option ResetCause) : s.KeepsRecords (s.blocksReset queue address cause inReset) := by
  have hchan : ∀ c, (s.blocksReset queue address cause inReset).chan c = {} := fun c => by
    simp [State.chan, State.blocksReset]
  have hjob : ∀ c, (s.blocksReset queue address cause inReset).job c = none := fun c => by
    simp [State.job, State.blocksReset]
  have kept : channelKept {} none := by
    refine ⟨by decide, ⟨rfl, by decide, by decide, by decide⟩, ?_, rfl, ⟨by decide, fun _ _ => rfl⟩,
      fun h => (nomatch h), forall_none, fun _ => rfl, fun _ => rfl⟩
    show ∀ sl ∈ [({ step := 3 } : Slot)], sl.Unfilled
    simp [Slot.Unfilled]
  have inRange : ({} : Channel).ValuesKept := by
    refine ⟨?_, by decide, by decide, by decide, by decide, by decide, forall_none, Nat.zero_le _,
      Nat.zero_le _, forall_none⟩
    show ∀ sl ∈ [({ step := 3 } : Slot)], sl.InRange
    simp [Slot.InRange]
  refine ⟨fun _ e => by cases e <;> trivial, fun c => ?_⟩
  rw [hchan, hjob]
  exact ⟨fun _ => kept, fun _ _ _ => ⟨inRange, forall_none⟩⟩

theorem channelKept.tick (h : channelKept ch j) :
    channelKept { ch with maxOn := ch.maxOn.tick } j := by
  obtain ⟨hv, hs, hf, hj, hd, ht, hjob, ho⟩ := h
  exact ⟨hv, hs, hf, hj, hd, fun hm => ht (by simpa [Timer.tick] using hm), hjob, ho⟩

theorem State.KeepsRecords.tick (s : State) : s.KeepsRecords s.tick := by
  refine ⟨fun h => h.of_engines fun e => .inl (by simp only [State.engine, State.tick]), fun c => ?_⟩
  have hchan : s.tick.chan c = { s.chan c with maxOn := (s.chan c).maxOn.tick } := by
    simp [State.chan, State.tick]
  have hjob : s.tick.job c = s.job c := by simp only [State.job, State.tick]
  rw [hchan, hjob]
  exact ⟨fun h => h.tick, fun _ _ hr => ⟨hr.1.tick, hr.2⟩⟩

theorem State.keepsRecords_stepRelation : StepRelation State.KeepsRecords where
  same he hc hj _ :=
    .of_records (fun h => h.of_engines fun e => .inl (by simp only [State.engine, he])) hc hj
  trans := State.KeepsRecords.trans
  move := State.KeepsRecords.move
  settled s e := by
    refine .of_records (fun h => h.settleEnd e) ?_ ?_ <;> unfold State.settleEnd <;> split <;> rfl
  halved s e cycles := by
    refine .of_records (fun h => h.halfWindowEnd e cycles) ?_ ?_ <;> unfold State.halfWindowEnd <;>
      split <;> rfl
  configured s c g hg hc :=
    s.setChan_keepsRecords c hc (fun h => h.configure hg) fun _ _ h => h.configure g
  created := State.createJob_keepsRecords
  listed s _ _ _ := .of_records id rfl rfl
  timed s _ _ _ _ _ _ := .of_records id rfl rfl
  reset := State.KeepsRecords.reset
  ticked := State.KeepsRecords.tick

end Sys2Proof.Machine

namespace Sys2Proof

open Machine

/-- Settles O57: a step keeps each record with its job, and the half-counts, by the moves it is made of. -/
theorem channelRecordsAreKept : Obligations.ChannelRecordsAreKept := by
  refine ⟨fun s t hk hs c => ?_, fun s t hk hv hs => ?_⟩
  · exact ((State.keepsRecords_stepRelation.step hs).records c).kept (hk c)
  · have kept := State.keepsRecords_stepRelation.step hs
    exact ⟨kept.counts hv.1, fun c => (kept.records c).inRange hv.1 (hk c) (hv.2 c)⟩

end Sys2Proof
end

section
/-! Engines keep to their own channels, the settings to their ranges, and timers and cycles to their modes
(O58). The first two follow from the moves; the third follows the mode through each command. -/

namespace Sys2Proof.Machine

/-! ## Engines and settings -/

theorem State.EnginesOwn.of_follows {s t : State} (h : s.EnginesOwn)
    (he : ∀ e, (t.engine e).record? = (s.engine e).record? ∨ s.EngineMoves t e)
    (hs : s.sched.Follows t.sched) : t.EnginesOwn := by
  obtain ⟨hr, hl⟩ := h
  refine ⟨fun e r hrec => ?_, fun cy' h' e item hi => ?_⟩
  · rcases he e with he | he | he | ⟨r', cy, item, he, hcy, hi, hch⟩ <;> rw [he] at hrec
    · exact hr e r hrec
    · exact hr e r hrec
    · cases hrec
    · cases hrec
      rw [hch]
      exact hl cy hcy e item hi
  · obtain ⟨-, -, -, -, hf⟩ := hs
    rcases hf cy' h' e item hi with ho | ⟨cy, hcy, hi⟩
    · exact ho
    · exact hl cy hcy e item hi

theorem State.EnginesOwn.of_same {s t : State} (h : s.EnginesOwn) (he : t.engines = s.engines)
    (hc : t.sched.cycle = s.sched.cycle) : t.EnginesOwn := by
  unfold State.EnginesOwn State.engine at *
  rwa [he, hc]

theorem State.settleEnd_sched (s : State) (e : EngineId) : (s.settleEnd e).sched = s.sched := by
  unfold State.settleEnd
  split <;> rfl

theorem State.halfWindowEnd_sched (s : State) (e : EngineId) (cycles : Nat) :
    (s.halfWindowEnd e cycles).sched = s.sched := by
  unfold State.halfWindowEnd
  split <;> rfl

theorem State.record_setEngine {s : State} {e : EngineId} {x : Engine}
    (h : x.record? = (s.engine e).record?) (e' : EngineId) :
    ((s.setEngine e x).engine e').record? = (s.engine e').record? := by
  by_cases he : e' = e
  · subst he
    rw [State.engine_setEngine_self, h]
  · rw [State.engine_setEngine_ne s x he]

/-- A burst goes into its next part with its record. -/
theorem State.settleEnd_record (s : State) (e e' : EngineId) :
    ((s.settleEnd e).engine e').record? = (s.engine e').record? := by
  unfold State.settleEnd
  split
  · rename_i h
    exact State.record_setEngine (by rw [h]; rfl) e'
  all_goals rfl

theorem State.halfWindowEnd_record (s : State) (e e' : EngineId) (cycles : Nat) :
    ((s.halfWindowEnd e cycles).engine e').record? = (s.engine e').record? := by
  unfold State.halfWindowEnd
  split
  · rename_i h
    exact State.record_setEngine (by rw [h]; rfl) e'
  all_goals rfl

theorem State.enginesOwn_stepRelation :
    StepRelation fun s t => s.EnginesOwn → t.EnginesOwn where
  same he _ _ hs h := h.of_same he (by rw [hs])
  trans h h' := h' ∘ h
  move hm h := h.of_follows (fun e => .inr (hm.engine e)) hm.follows
  settled s e h := h.of_follows (fun e' => .inl (s.settleEnd_record e e'))
    (by rw [State.settleEnd_sched]; exact .refl _)
  halved s e cycles h := h.of_follows (fun e' => .inl (s.halfWindowEnd_record e e' cycles))
    (by rw [State.halfWindowEnd_sched]; exact .refl _)
  configured _ _ _ _ _ h := h.of_same rfl rfl
  created _ _ _ _ _ h := h.of_same rfl rfl
  listed _ _ _ _ h := h.of_same rfl rfl
  timed _ _ _ _ _ _ _ h := h.of_same rfl rfl
  reset _ _ _ _ _ _ := ⟨fun e _ h => (by cases e <;> cases h), fun _ h => nomatch h⟩
  ticked s h := h.of_same (by simp only [State.tick]) (by simp only [State.tick])

theorem Scheduler.SettingsKept.of_follows {d d' : Scheduler} (h : d.SettingsKept)
    (hf : d.Follows d') : d'.SettingsKept := by
  obtain ⟨h1, h2, h3, h4, -⟩ := hf
  unfold Scheduler.SettingsKept at *
  rwa [h1, h2, h3, h4]

theorem State.settingsKept_stepRelation :
    StepRelation fun s t => s.sched.SettingsKept → t.sched.SettingsKept where
  same _ _ _ hs h := hs ▸ h
  trans h h' := h' ∘ h
  move hm h := h.of_follows hm.follows
  settled s e h := (s.settleEnd_sched e).symm ▸ h
  halved s e cycles h := (s.halfWindowEnd_sched e cycles).symm ▸ h
  configured _ _ _ _ _ h := h
  created _ _ _ _ _ h := h
  listed _ _ hl hn h :=
    have ⟨a1, a2, d1, d2, i, _, _⟩ := h
    ⟨a1, a2, d1, d2, i, hl, hn⟩
  timed _ _ _ _ ha hd hi h :=
    have ⟨_, _, _, _, _, l, n⟩ := h
    ⟨ha.1, ha.2, hd.1, hd.2, hi, l, n⟩
  reset _ _ _ _ _ _ := by
    show Scheduler.SettingsKept {}
    unfold Scheduler.SettingsKept
    decide
  ticked s h := by
    unfold Scheduler.SettingsKept at *
    simpa only [State.tick] using h

/-! ## Scanning goes on -/

theorem State.scanningNow.of_mode {s t : State} (h : s.scanningNow)
    (hm : t.sched.mode = s.sched.mode) : t.scanningNow := by
  unfold State.scanningNow at *
  rwa [hm]

/-- The mode and the two timers are the same in two states. -/
structure State.SameMode (s t : State) : Prop where
  mode : t.sched.mode = s.sched.mode
  period : t.sched.periodTimer = s.sched.periodTimer
  inactivity : t.sched.inactivity = s.sched.inactivity

theorem State.SameMode.refl (s : State) : s.SameMode s := ⟨rfl, rfl, rfl⟩

theorem State.SameMode.trans {s t u : State} (h : s.SameMode t) (h' : t.SameMode u) : s.SameMode u :=
  ⟨h'.mode.trans h.mode, h'.period.trans h.period, h'.inactivity.trans h.inactivity⟩

theorem State.offer_sameMode (s : State) (e : EngineId) : s.SameMode (s.offer e) := by
  have listed : ∀ l, s.SameMode (s.offerList e l) := by
    intro l
    induction l with
    | nil => exact ⟨rfl, rfl, rfl⟩
    | cons item rest ih =>
      unfold State.offerList
      split
      · exact ⟨rfl, rfl, rfl⟩
      · exact ih
  unfold State.offer
  split
  · split
    · exact listed _
    · exact .refl s
  · exact .refl s

/-- The start of a cycle changes the cycle, the engines and the period timer (R85, R94). -/
theorem State.beginCycle_mode (s : State) (k : CycleKind) :
    (s.beginCycle k).sched.mode = s.sched.mode
      ∧ (s.beginCycle k).sched.periodTimer = s.sched.periodAtStart k
      ∧ (s.beginCycle k).sched.inactivity = s.sched.inactivity := by
  have offered : ∀ t : State, t.SameMode ((((t.offer .a).offer .b).offer .c).offer .d) := fun t =>
    (((t.offer_sameMode .a).trans (State.offer_sameMode _ .b)).trans
      (State.offer_sameMode _ .c)).trans (State.offer_sameMode _ .d)
  have h := offered (s.withSched fun d =>
    { d with
      cycle := some
        { kind := k
          lists := ⟨s.buildList k .a, s.buildList k .b, s.buildList k .c, s.buildList k .d⟩ }
      periodTimer := d.periodAtStart k })
  exact ⟨h.mode, h.period, h.inactivity⟩

theorem State.scanningNow.judgeQuiet {s : State} (h : s.scanningNow) : s.judgeQuiet.scanningNow := by
  obtain ⟨-, ⟨hm, -⟩ | ⟨hm, -⟩⟩ := s.judgeQuiet_cases
  · exact h.of_mode hm
  · exact .inr hm

theorem State.scanningNow.nextStart {s : State} (h : s.scanningNow) (cy : Cycle) :
    (s.nextStart cy).scanningNow := by
  unfold State.nextStart
  dsimp only
  repeat' split
  · exact h.of_mode (State.beginCycle_mode _ _).1
  all_goals exact h

theorem State.counted_sched (s : State) : s.countCycle.evaluateKeys.sched = s.countCycle.sched := by
  rw [State.evaluateKeys_eq]

theorem State.scanningNow.endScanCycle {s : State} (h : s.scanningNow) (k : CycleKind) :
    (s.endScanCycle k).scanningNow := by
  have evaluated : s.countCycle.evaluateKeys.scanningNow := h.of_mode (by rw [s.counted_sched]; rfl)
  unfold State.endScanCycle
  dsimp only
  split <;> split
  · exact evaluated.judgeQuiet.nextStart _
  · exact evaluated.nextStart _
  · exact evaluated.judgeQuiet
  · exact evaluated

theorem State.scanningNow.endCycle {s : State} (h : s.scanningNow) : s.endCycle.scanningNow := by
  unfold State.endCycle
  split
  · split
    · unfold State.endServiceCycle
      rcases h with hm | hm <;> rw [hm]
      · exact .inl ((State.beginCycle_mode _ _).1.trans hm)
      · exact .inr hm
    all_goals exact h.endScanCycle _
  · exact h

theorem State.scanningNow.finishCycles {s : State} (h : s.scanningNow) (n : Nat) :
    (State.finishCycles n s).scanningNow := by
  induction n generalizing s with
  | zero => exact h
  | succ n ih =>
    unfold State.finishCycles
    split
    · exact ih h.endCycle
    · exact h

theorem State.scanningNow.startCycle {s : State} (h : s.scanningNow) (k : CycleKind) :
    (s.startCycle k).scanningNow :=
  (h.of_mode (s.beginCycle_mode k).1).finishCycles 3

theorem State.dozeToActive_scanning (s : State) (cause : ModeCause) :
    (s.dozeToActive cause).scanningNow := by
  have h : (s.wakened cause).scanningNow := .inl (by rw [State.wakened_sched])
  unfold State.dozeToActive
  rw [s.wakened_eq cause]
  generalize s.wakened cause = w at h
  dsimp only
  split
  · exact h
  · exact h.startCycle .active

theorem State.activeToDoze_scanning (s : State) (cause : ModeCause) :
    (s.activeToDoze cause).scanningNow := by
  unfold State.activeToDoze
  dsimp only
  split <;> exact .inr rfl

/-! ## A part that does not scan is left alone -/

/-- Scanning goes on, or the engines and the scheduler are as they were. -/
structure State.Calm (s t : State) : Prop where
  scanning : s.scanningNow → t.scanningNow
  still : ¬ s.scanningNow → t.engines = s.engines ∧ t.sched = s.sched

theorem State.Calm.of_same {s t : State} (he : t.engines = s.engines) (hs : t.sched = s.sched) :
    s.Calm t := ⟨fun h => h.of_mode (by rw [hs]), fun _ => ⟨he, hs⟩⟩

theorem State.Calm.refl (s : State) : s.Calm s := .of_same rfl rfl

theorem State.Calm.trans {s t u : State} (h : s.Calm t) (h' : t.Calm u) : s.Calm u := by
  refine ⟨h'.scanning ∘ h.scanning, fun hn => ?_⟩
  obtain ⟨he, hs⟩ := h.still hn
  obtain ⟨he', hs'⟩ := h'.still fun ht => hn (ht.of_mode (by rw [hs]))
  exact ⟨he'.trans he, hs'.trans hs⟩

theorem State.Calm.of_scanning {s t : State} (h : s.scanningNow) (h' : t.scanningNow) : s.Calm t :=
  ⟨fun _ => h', fun hn => (hn h).elim⟩

theorem State.workSignal_calm (s : State) : s.Calm s.workSignal := by
  unfold State.workSignal
  split
  · exact .of_scanning (.inr ‹_›) (s.dozeToActive_scanning _)
  · exact .of_scanning (.inl ‹_›) (.inl ‹_›)
  all_goals exact .refl s

theorem State.touchSignal_calm (s : State) (c : ChannelNo) : s.Calm (s.touchSignal c) := by
  unfold State.touchSignal
  split
  · rename_i h
    exact .of_scanning (.inr h.1) (s.dozeToActive_scanning _)
  · exact .refl s

theorem State.autoJob_calm (s : State) (c : ChannelNo) : s.Calm (s.autoJob c) :=
  State.Calm.trans (t := s.createJob c .automatic) (.of_same rfl rfl) (State.workSignal_calm _)

theorem State.autoJobAtFaultExit_calm (s : State) (c : ChannelNo) :
    s.Calm (s.autoJobAtFaultExit c) := by
  unfold State.autoJobAtFaultExit
  split
  · exact s.autoJob_calm c
  · exact .refl s

theorem State.autoJobIfScanned_calm (s : State) (c : ChannelNo) : s.Calm (s.autoJobIfScanned c) := by
  unfold State.autoJobIfScanned
  split
  · exact s.autoJob_calm c
  · exact .refl s

theorem State.applyEffect_calm (s : State) (c : ChannelNo) (x : SampleEffect) :
    s.Calm (s.applyEffect c x) := by
  have posted : s.Calm ((s.setChan c x.channel).postAll x.events) := by
    rw [State.postAll_eq]
    exact .of_same rfl rfl
  unfold State.applyEffect
  dsimp only
  repeat' split
  · exact (posted.trans (State.autoJobAtFaultExit_calm _ c)).trans (State.touchSignal_calm _ c)
  · exact posted.trans (State.touchSignal_calm _ c)
  · exact posted.trans (State.autoJobAtFaultExit_calm _ c)
  · exact posted

theorem State.deliverCal_calm (s : State) (r : BurstRecord) (serial : Nat) (x : Sample) :
    s.Calm (s.deliverCal r serial x) := by
  unfold State.deliverCal
  split
  · rename_i j _
    split
    · split
      · exact .of_same rfl rfl
      · rename_i o ch events _
        obtain ⟨he, -, -, hs⟩ := s.endJob_blocks r.channel j o ch events
        obtain ⟨he', -, -, hs'⟩ :=
          (s.endJob r.channel j o ch events).closeEntryOf_blocks j.origin none
        exact .of_same (he'.trans he) (hs'.trans hs)
    · exact .refl s
  · exact .refl s

theorem State.deliverMeasure_calm (s : State) (r : BurstRecord) (tag : Byte) (x : Sample) :
    s.Calm (s.deliverMeasure r tag x) := by
  unfold State.deliverMeasure
  dsimp only
  repeat' split
  · refine State.Calm.trans ?_ (State.autoJobIfScanned_calm _ _)
    exact .of_same rfl rfl
  all_goals exact .of_same rfl rfl

/-- A sample that is delivered reaches the engines and the scheduler by its signals alone. -/
theorem State.deliver_calm (s : State) (r : BurstRecord) (x : Sample) : s.Calm (s.deliver r x) := by
  unfold State.deliver
  split
  · unfold State.deliverScan
    split
    · exact s.applyEffect_calm _ _
    · exact .refl s
  · exact s.deliverCal_calm r _ x
  · exact s.deliverMeasure_calm r _ x

/-! ## Stillness in STOPPED and SERVICE -/

theorem State.scanningNow.stillWhenStopped {s : State} (h : s.scanningNow) : s.StillWhenStopped := by
  constructor
  · rintro (hm | hm) <;> rcases h with h | h <;> rw [hm] at h <;> cases h
  · intro hm
    rcases h with h | h <;> rw [hm] at h <;> cases h

theorem State.stillWhenStopped_of_service {s : State} (hm : s.sched.mode = .service)
    (hp : s.sched.periodTimer = none) (hi : s.sched.inactivity = .stopped) : s.StillWhenStopped :=
  ⟨fun _ => ⟨hp, hi⟩, fun h => by rw [hm] at h; cases h⟩

variable {s t : State}

theorem State.StillWhenStopped.of_same (h : s.StillWhenStopped) (he : t.engines = s.engines)
    (hs : t.sched = s.sched) : t.StillWhenStopped := by
  unfold State.StillWhenStopped State.enginesIdle at *
  rwa [he, hs]

theorem State.StillWhenStopped.calm (h : s.StillWhenStopped) (hc : s.Calm t) :
    t.StillWhenStopped := by
  by_cases hs : s.scanningNow
  · exact (hc.scanning hs).stillWhenStopped
  · obtain ⟨he, hd⟩ := hc.still hs
    exact h.of_same he hd

/-- A part with a timer that runs is scanning (R100). -/
theorem State.StillWhenStopped.scanning_of_timer (h : s.StillWhenStopped)
    (ht : s.sched.periodTimer ≠ none ∨ s.sched.inactivity ≠ .stopped) : s.scanningNow := by
  have rest : ¬ (s.sched.mode = .stopped ∨ s.sched.mode = .service) := fun hm =>
    ht.elim (fun hp => hp (h.1 hm).1) fun hi => hi (h.1 hm).2
  unfold State.scanningNow
  cases hm : s.sched.mode <;> simp [hm] at rest ⊢

/-- In STOPPED every engine is IDLE (R100). -/
theorem State.StillWhenStopped.engine_idle (h : s.StillWhenStopped) (hm : s.sched.mode = .stopped)
    (e : EngineId) : s.engine e = .idle := by
  have := (h.2 hm).2
  simp only [State.enginesIdle, Bool.and_eq_true, beq_iff_eq] at this
  obtain ⟨⟨⟨ha, hb⟩, hc⟩, hd⟩ := this
  cases e <;> assumption

theorem State.StillWhenStopped.of_sameMode (h : s.StillWhenStopped) (hm : s.SameMode t)
    (hs : s.sched.mode = .stopped → t.sched.cycle = none ∧ t.enginesIdle = true) :
    t.StillWhenStopped := by
  unfold State.StillWhenStopped
  rw [hm.mode, hm.period, hm.inactivity]
  exact ⟨h.1, hs⟩

theorem State.StillWhenStopped.setEngine_idle (h : s.StillWhenStopped) (e : EngineId) :
    (s.setEngine e .idle).StillWhenStopped := by
  refine h.of_sameMode ⟨rfl, rfl, rfl⟩ fun hm => ⟨(h.2 hm).1, ?_⟩
  have := (h.2 hm).2
  simp only [State.enginesIdle, Bool.and_eq_true, beq_iff_eq] at this ⊢
  obtain ⟨⟨⟨ha, hb⟩, hc⟩, hd⟩ := this
  cases e <;> simp [State.setEngine, PerEngine.set, ha, hb, hc, hd]

theorem State.StillWhenStopped.offer (h : s.StillWhenStopped) (e : EngineId) :
    (s.offer e).StillWhenStopped := by
  refine h.of_sameMode (s.offer_sameMode e) fun hm => ?_
  have hc := (h.2 hm).1
  have : s.offer e = s := by
    unfold State.offer
    rw [hc]
  rw [this]
  exact h.2 hm

/-- Outside scanning, an ACTIVE or DOZE cycle that ends is counted, and nothing starts (R92). -/
theorem State.endScanCycle_of_not_scanning {cy : Cycle} (h : ¬ s.scanningNow)
    (hc : s.sched.cycle = some cy) (k : CycleKind) : s.endScanCycle k = s.counted := by
  obtain ⟨v, -, hv, -, -, -, he⟩ := s.endScanCycle_cases k cy hc
  obtain rfl := hv (.inr fun hm => h (.inl hm))
  have hs : s.isScanning = false := Bool.eq_false_iff.2 (mt s.isScanning_iff.1 h)
  have hd : s.sched.mode ≠ .doze := fun hm => h (.inr hm)
  rw [he rfl]
  simp [hs, hd]

/-- The end of a cycle outside scanning is in SERVICE, where the next begins or the part stops (R93). -/
theorem State.StillWhenStopped.endCycle (h : s.StillWhenStopped) (hf : s.cycleFinished = true) :
    s.endCycle.StillWhenStopped := by
  by_cases hs : s.scanningNow
  · exact hs.endCycle.stillWhenStopped
  unfold State.cycleFinished at hf
  split at hf
  next cy hc =>
    have hm : s.sched.mode = .service := by
      cases hm : s.sched.mode with
      | stopped => rw [(h.2 hm).1] at hc; cases hc
      | service => rfl
      | active => exact (hs (.inl hm)).elim
      | doze => exact (hs (.inr hm)).elim
    obtain ⟨hp, hi⟩ := h.1 (.inr hm)
    have scanned : ∀ k, (s.endScanCycle k).StillWhenStopped := fun k => by
      rw [State.endScanCycle_of_not_scanning hs hc k]
      exact State.stillWhenStopped_of_service hm hp hi
    unfold State.endCycle
    rw [hc]
    dsimp only
    split
    · unfold State.endServiceCycle
      rw [hm]
      dsimp only
      split
      · obtain ⟨hm', hp', hi'⟩ := (s.setCycle none).beginCycle_mode .service
        exact State.stillWhenStopped_of_service (hm'.trans hm) (hp'.trans hp) (hi'.trans hi)
      · exact ⟨fun _ => ⟨hp, hi⟩, fun _ => ⟨rfl, (Bool.and_eq_true_iff.1 hf).2⟩⟩
    · exact scanned _
    · exact scanned _
  next => cases hf

theorem State.StillWhenStopped.settleCycle (h : s.StillWhenStopped) :
    s.settleCycle.StillWhenStopped := by
  unfold State.settleCycle
  generalize 3 = n
  induction n generalizing s with
  | zero => exact h
  | succ n ih =>
    unfold State.finishCycles
    split
    · exact ih (h.endCycle ‹_›)
    · exact h

theorem State.StillWhenStopped.engineFree (h : s.StillWhenStopped) (e : EngineId) :
    (s.engineFree e).StillWhenStopped :=
  ((h.setEngine_idle e).offer e).settleCycle

/-! ## Each effect -/

theorem State.StillWhenStopped.settleEnd (h : s.StillWhenStopped) (e : EngineId) :
    (s.settleEnd e).StillWhenStopped := by
  refine h.of_sameMode ?_ fun hm => ?_
  · constructor <;> rw [State.settleEnd_sched]
  · have : s.settleEnd e = s := by
      unfold State.settleEnd
      rw [h.engine_idle hm e]
    rw [this]
    exact h.2 hm

theorem State.StillWhenStopped.halfWindowEnd (h : s.StillWhenStopped) (e : EngineId) (cycles : Nat) :
    (s.halfWindowEnd e cycles).StillWhenStopped := by
  refine h.of_sameMode ?_ fun hm => ?_
  · constructor <;> rw [State.halfWindowEnd_sched]
  · have : s.halfWindowEnd e cycles = s := by
      unfold State.halfWindowEnd
      rw [h.engine_idle hm e]
    rw [this]
    exact h.2 hm

theorem State.StillWhenStopped.burstComplete (h : s.StillWhenStopped) (e : EngineId) (cycles : Nat) :
    (s.burstComplete e cycles).StillWhenStopped := by
  unfold State.burstComplete
  split
  · exact (h.calm (s.deliver_calm _ _)).engineFree e
  all_goals exact h

theorem State.StillWhenStopped.periodExpiry (h : s.StillWhenStopped) :
    s.periodExpiry.StillWhenStopped := by
  unfold State.periodExpiry
  split
  · rename_i hp
    have hs := h.scanning_of_timer (.inl fun hn => by rw [hn] at hp; cases hp)
    repeat' split
    · exact State.scanningNow.stillWhenStopped hs
    · exact (State.scanningNow.startCycle (s := s.setPeriod none) hs _).stillWhenStopped
    · exact State.scanningNow.stillWhenStopped hs
  · exact h

theorem State.StillWhenStopped.inactivityExpiry (h : s.StillWhenStopped) :
    s.inactivityExpiry.StillWhenStopped := by
  unfold State.inactivityExpiry
  split
  · repeat' split
    · exact (s.activeToDoze_scanning _).stillWhenStopped
    · rename_i hm _
      exact State.scanningNow.stillWhenStopped (.inl hm)
    · exact h
  all_goals exact h

theorem State.StillWhenStopped.maxOnExpiry (h : s.StillWhenStopped) (c : ChannelNo) :
    (s.maxOnExpiry c).StillWhenStopped := by
  unfold State.maxOnExpiry
  dsimp only
  split
  · exact h.of_same rfl rfl
  · exact h

theorem State.StillWhenStopped.tick (h : s.StillWhenStopped) : s.tick.StillWhenStopped := by
  obtain ⟨ht, hs⟩ := h
  have he : s.tick.enginesIdle = s.enginesIdle := by simp only [State.enginesIdle, State.tick]
  unfold State.StillWhenStopped
  rw [he]
  simp only [State.tick]
  refine ⟨fun hm => ?_, hs⟩
  obtain ⟨hp, hi⟩ := ht hm
  simp [hp, hi, Timer.tick, InactivityTimer.tick]

theorem State.startActive_scanning (s : State) : s.startActive.scanningNow := by
  have h := s.scanningStarted_eq .active
  unfold State.startActive
  dsimp only [State.reseeded] at h ⊢
  rw [h]
  split
  · exact .inl rfl
  · exact State.scanningNow.startCycle (.inl rfl) .active

theorem State.startDoze_scanning (s : State) : s.startDoze.scanningNow := by
  have h := s.scanningStarted_eq .doze
  unfold State.startDoze
  dsimp only [State.reseeded] at h ⊢
  rw [h]
  split
  · exact .inr rfl
  · exact (State.workSignal_calm _).scanning (.inr rfl)

theorem State.stopJobs_outside (s : State) :
    s.stopJobs.engines = s.engines ∧ s.stopJobs.sched = s.sched := by
  have one : ∀ (s : State) (c : ChannelNo),
      (s.stopJob c).engines = s.engines ∧ (s.stopJob c).sched = s.sched := by
    intro s c
    unfold State.stopJob
    split
    · rename_i j _
      obtain ⟨he, hs⟩ := s.abortJob_outside c
      obtain ⟨he', -, -, hs'⟩ := (s.abortJob c).closeEntryOf_blocks j.origin (some .aborted)
      exact ⟨he'.trans he, hs'.trans hs⟩
    · exact ⟨rfl, rfl⟩
  unfold State.stopJobs
  generalize allChannels = cs
  induction cs generalizing s with
  | nil => exact ⟨rfl, rfl⟩
  | cons c rest ih =>
    obtain ⟨he, hs⟩ := one s c
    obtain ⟨he', hs'⟩ := ih (s.stopJob c)
    exact ⟨he'.trans he, hs'.trans hs⟩

theorem State.stopMeasures_outside (s : State) :
    s.stopMeasures.engines = s.engines ∧ s.stopMeasures.sched = s.sched := by
  unfold State.stopMeasures
  generalize s.table.filter (fun e => e.work.measured.isSome) = l
  induction l generalizing s with
  | nil => exact ⟨rfl, rfl⟩
  | cons e rest ih => exact ih (s.completeEntry e .aborted)

/-- The stop's parts behind the scheduler's leave the engines IDLE and the scheduler as it is (R110). -/
theorem State.stopOthers_outside (s : State) :
    s.stopOthers.engines = ⟨.idle, .idle, .idle, .idle⟩ ∧ s.stopOthers.sched = s.sched := by
  obtain ⟨he, hs⟩ := s.abandonBursts.stopJobs_outside
  obtain ⟨he', hs'⟩ := s.abandonBursts.stopJobs.stopMeasures_outside
  unfold State.stopOthers State.stopKeys
  simp only [State.postAll_eq, State.post_engines, State.post_sched, State.mapKeys_engines,
    State.mapKeys_sched, State.mapChannels_engines, State.mapChannels_sched]
  exact ⟨he'.trans he, hs'.trans hs⟩

/-- The stop ends in STOPPED, with nothing running (R100, R110). -/
theorem State.stopPart_still (s : State) : s.stopPart.StillWhenStopped := by
  have met : s.stopScheduler.meetStop.sched = s.stopScheduler.sched :=
    (State.completionsInStop_sameOutside (s := s.stopScheduler) rfl _).sched
  obtain ⟨he, hs⟩ := s.stopScheduler.meetStop.stopOthers_outside
  have hd : s.stopPart.sched = s.stopScheduler.sched := hs.trans met
  have hi : s.stopPart.enginesIdle = true := by
    unfold State.enginesIdle
    rw [show s.stopPart.engines = _ from he]
    rfl
  unfold State.StillWhenStopped
  rw [hd]
  exact ⟨fun _ => ⟨rfl, rfl⟩, fun _ => ⟨rfl, hi⟩⟩

theorem State.StillWhenStopped.setMode (h : s.StillWhenStopped) (m : Mode) :
    (s.setMode m).StillWhenStopped := by
  unfold State.setMode
  split
  · exact s.startActive_scanning.stillWhenStopped
  · exact s.startActive_scanning.stillWhenStopped
  · exact s.startDoze_scanning.stillWhenStopped
  · exact s.stopPart_still
  · exact s.stopPart_still
  · exact s.stopPart_still
  · exact (s.activeToDoze_scanning _).stillWhenStopped
  · exact (s.dozeToActive_scanning _).stillWhenStopped
  · exact h

theorem State.StillWhenStopped.workTaken (h : s.StillWhenStopped) :
    s.workTaken.StillWhenStopped := by
  unfold State.workTaken
  split
  · rename_i hm
    obtain ⟨hp, hi⟩ := h.1 (.inl hm)
    obtain ⟨hm', hp', hi'⟩ := (s.changeMode .service .work).beginCycle_mode .service
    exact (State.stillWhenStopped_of_service hm' (hp'.trans hp) (hi'.trans hi)).settleCycle
  all_goals exact h.calm s.workSignal_calm

theorem State.StillWhenStopped.completeEntry (h : s.StillWhenStopped) (e : PendingEntry)
    (status : Status) : (s.completeEntry e status).StillWhenStopped := h.of_same rfl rfl

theorem State.StillWhenStopped.cancelEntry (h : s.StillWhenStopped) (e : PendingEntry) :
    (s.cancelEntry e).StillWhenStopped := by
  unfold State.cancelEntry
  split
  · obtain ⟨he, -, -, hs⟩ := s.cancelCalibrate_blocks e.tag
    exact h.of_same he hs
  · rename_i c _ _ _ _
    unfold State.cancelMeasure
    dsimp only
    split
    · have completed := (h.setEngine_idle (engineOf c)).completeEntry e .cancelled
      exact (completed.calm (State.autoJobIfScanned_calm _ c)).engineFree _
    · exact (h.completeEntry e .cancelled).calm (State.autoJobIfScanned_calm _ c)

theorem State.StillWhenStopped.effect (h : s.StillWhenStopped) (he : Effect s t) :
    t.StillWhenStopped := by
  cases he with
  | nothing => exact h
  | settled e => exact h.settleEnd e
  | halved e cycles => exact h.halfWindowEnd e cycles
  | completed e cycles => exact h.burstComplete e cycles
  | period => exact h.periodExpiry
  | inactivity => exact h.inactivityExpiry
  | maxOn c => exact h.maxOnExpiry c
  | ticked => exact h.tick
  | reset => exact ⟨fun _ => ⟨rfl, rfl⟩, fun _ => ⟨rfl, rfl⟩⟩
  | configured c g =>
    exact h.calm (State.Calm.trans (t := s.setChan c ((s.chan c).configure g)) (.of_same rfl rfl)
      (State.autoJobIfScanned_calm _ c))
  | keyWritten k x => exact h.of_same rfl rfl
  | listWritten es => exact h
  | timed active doze idle => exact h
  | moded m => exact h.setMode m
  | calibrated tag cs _ hn =>
    refine State.StillWhenStopped.workTaken (h.of_same ?_ ?_) <;>
      rw [State.createJobs, State.createJobs_eq _ _ _ hn] <;> rfl
  | measured tag x => exact State.StillWhenStopped.workTaken (h.of_same rfl rfl)
  | cancelled e => exact h.cancelEntry e

theorem State.StillWhenStopped.step (h : s.StillWhenStopped) (hs : step s = .next t) :
    t.StillWhenStopped := by
  obtain ⟨u, hu, v, he, hv⟩ := step_comes hs
  exact ((h.of_same hu.engines hu.sched).effect he).of_same hv.engines hv.sched

end Sys2Proof.Machine

namespace Sys2Proof

open Machine

/-- Settles O58: engines and settings by the moves of a step, stillness by the mode at each effect. -/
theorem schedulerAndEnginesAreKept : Obligations.SchedulerAndEnginesAreKept :=
  ⟨fun _ _ h hs => State.enginesOwn_stepRelation.step hs h, fun _ _ h hk hs =>
    ⟨h.step hs, State.settingsKept_stepRelation.step hs hk⟩⟩

end Sys2Proof
end

section
/-! The parts of a burst, and its sample (O31). -/

namespace Sys2Proof.Machine

theorem noiseMetric_eq (c1 c2 : Nat) : noiseMetric c1 c2 = ((c1 : Int) - c2).natAbs := by
  unfold noiseMetric
  omega

theorem noiseMetric_le {c1 c2 : Nat} (h1 : c1 ≤ 16383) (h2 : c2 ≤ 16383) :
    noiseMetric c1 c2 ≤ 16383 := by
  unfold noiseMetric
  omega

/-- The tests of the class, in order, of two half-counts that are saturated (R11). -/
theorem classify_cases (limit : Nat) {c1 c2 : Nat} (h1 : c1 ≤ 16383) (h2 : c2 ≤ 16383) :
    ((c1 < 32 ∨ c2 < 32) ∧ classify limit c1 c2 = .fault .short)
      ∨ ((32 ≤ c1 ∧ 32 ≤ c2 ∧ (c1 = 16383 ∨ c2 = 16383))
        ∧ classify limit c1 c2 = .fault .overrange)
      ∨ ((32 ≤ c1 ∧ 32 ≤ c2 ∧ c1 ≠ 16383 ∧ c2 ≠ 16383 ∧ limit < ((c1 : Int) - c2).natAbs)
        ∧ classify limit c1 c2 = .noisy)
      ∨ ((32 ≤ c1 ∧ 32 ≤ c2 ∧ c1 ≠ 16383 ∧ c2 ≠ 16383 ∧ ((c1 : Int) - c2).natAbs ≤ limit)
        ∧ classify limit c1 c2 = .clean) := by
  unfold classify counterTop
  rw [noiseMetric_eq]
  split
  · exact .inl ⟨by omega, rfl⟩
  · split
    · exact .inr (.inl ⟨by omega, rfl⟩)
    · split
      · exact .inr (.inr (.inl ⟨by omega, rfl⟩))
      · exact .inr (.inr (.inr ⟨by omega, rfl⟩))

/-- Each class is given by its own test (R11). -/
theorem classify_iff (limit : Nat) {c1 c2 : Nat} (h1 : c1 ≤ 16383) (h2 : c2 ≤ 16383) :
    (classify limit c1 c2 = .fault .short ↔ c1 < 32 ∨ c2 < 32)
      ∧ (classify limit c1 c2 = .fault .overrange
          ↔ 32 ≤ c1 ∧ 32 ≤ c2 ∧ (c1 = 16383 ∨ c2 = 16383))
      ∧ (classify limit c1 c2 = .noisy
          ↔ 32 ≤ c1 ∧ 32 ≤ c2 ∧ c1 ≠ 16383 ∧ c2 ≠ 16383 ∧ limit < ((c1 : Int) - c2).natAbs)
      ∧ (classify limit c1 c2 = .clean
          ↔ 32 ≤ c1 ∧ 32 ≤ c2 ∧ c1 ≠ 16383 ∧ c2 ≠ 16383 ∧ ((c1 : Int) - c2).natAbs ≤ limit) := by
  rcases classify_cases limit h1 h2 with ⟨h, hc⟩ | ⟨h, hc⟩ | ⟨h, hc⟩ | ⟨h, hc⟩ <;> rw [hc] <;>
    simp only [reduceCtorEq, SampleClass.fault.injEq, true_iff, false_iff] <;> omega

/-- The settle period ends into the first half-window (R5). -/
theorem exec_settleEnd {s : State} {e : EngineId} {r : BurstRecord} {timer : Nat}
    (h : s.engine e = .settle r timer) :
    exec (.settleEnd e) s
      = .next { s with engines := s.engines.set e (.half1 r (64 * r.window) 0) } := by
  show Host.Outcome.next (s.settleEnd e) = _
  unfold State.settleEnd
  rw [h]
  rfl

/-- The first half-window ends into the second, with c1 kept (R6). -/
theorem exec_halfWindowEnd {s : State} {e : EngineId} {r : BurstRecord} {timer counter : Nat}
    (h : s.engine e = .half1 r timer counter) (cycles : Nat) :
    exec (.halfWindowEnd e cycles) s
      = .next
        { s with
          engines := s.engines.set e
            (.half2 r (64 * r.window) 0 (min 16383 (counter + cycles))) } := by
  show Host.Outcome.next (s.halfWindowEnd e cycles) = _
  unfold State.halfWindowEnd
  rw [h]
  rfl

end Sys2Proof.Machine

namespace Sys2Proof

open Machine

/-- Settles O31: the parts of a burst by their meanings, the sample by the tests of its class. -/
theorem burstPartsAndSample : Obligations.BurstPartsAndSample := by
  refine ⟨⟨fun _ _ _ _ h => exec_settleEnd h, fun _ _ _ _ _ cycles h => exec_halfWindowEnd h cycles,
    fun window => ?_⟩, fun r limit c1 c2 h1 h2 => ?_⟩
  · unfold burstTicks settleTicks halfWindowTicks
    omega
  · exact ⟨rfl, rfl, rfl, by show (c1 + c2) / 2 ≤ 16383; omega, noiseMetric_eq c1 c2,
      noiseMetric_le h1 h2, classify_iff limit h1 h2⟩

end Sys2Proof
end

section
/-! The completion of a burst, by its purpose (O32 to O34): what the delivery of the sample comes to, and
the return of the engine to IDLE. -/

namespace Sys2Proof.Machine

/-! ## The engine that completes -/

/-- A completed burst delivers its sample, and frees its engine (R9, R12). -/
theorem exec_burstComplete {s : State} {e : EngineId} {r : BurstRecord} {timer counter c1 : Nat}
    (he : s.engine e = .half2 r timer counter c1) (cycles : Nat) :
    exec (.burstComplete e cycles) s
      = .next
        ((s.deliver r
          (r.sample (s.chan r.channel).config.noiseLimit c1
            (min 16383 (counter + cycles)))).engineFree e) := by
  show Host.Outcome.next (s.burstComplete e cycles) = _
  unfold State.burstComplete
  rw [he]
  rfl

/-- In a cycle that another engine keeps in flight, and with nothing on its list, an engine completes its
burst with the delivery of the sample alone, where that touches no engine and no list. -/
theorem exec_burstComplete_busy {s v : State} {e other : EngineId} {r : BurstRecord}
    {timer counter c1 cycles : Nat} {cy : Cycle} (he : s.engine e = .half2 r timer counter c1)
    (hl : cy.lists.get e = []) (ho : other ≠ e) (hb : s.engine other ≠ .idle)
    (hd : s.deliver r
      (r.sample (s.chan r.channel).config.noiseLimit c1 (min 16383 (counter + cycles))) = v)
    (hv : v.engines = s.engines ∧ ∃ cy', v.sched.cycle = some cy' ∧ cy'.lists = cy.lists) :
    exec (.burstComplete e cycles) s = .next { v with engines := s.engines.set e .idle } := by
  obtain ⟨hve, cy', hvc, hvl⟩ := hv
  have hvb : v.engine other ≠ .idle := by rwa [State.engine, hve]
  rw [exec_burstComplete he, hd,
    State.engineFree_of_busy v e other cy' hvc (by rw [hvl, hl]) ho hvb, State.setEngine, hve]

/-- An engine freed with an item on its list that is dispatched takes it in the same claim (R4, R89). -/
theorem State.engineFree_dispatches {s : State} {e : EngineId} {cy : Cycle} {item : WorkItem}
    {rest : List WorkItem} {r : BurstRecord} (hc : s.sched.cycle = some cy)
    (hl : cy.lists.get e = item :: rest) (hr : s.judgeItem item = some r) :
    s.engineFree e
      = { s with
          sched := { s.sched with cycle := some { cy with lists := cy.lists.set e rest } }
          engines := s.engines.set e (.settle r 40) } := by
  have hj : (s.setEngine e .idle).judgeItem item = some r := by
    rw [← hr]
    exact State.judgeItem_congr rfl rfl rfl item
  have offered : (s.setEngine e .idle).offer e
      = { s with
          sched := { s.sched with cycle := some { cy with lists := cy.lists.set e rest } }
          engines := s.engines.set e (.settle r 40) } := by
    unfold State.offer
    rw [State.setEngine_sched, hc]
    dsimp only
    rw [if_pos (s.engine_setEngine_self e .idle), hl]
    unfold State.offerList
    rw [hj]
    simp [State.setList, State.setCycle, State.withSched, State.dispatch, State.setEngine,
      settleTicks, hc]
  unfold State.engineFree
  rw [offered]
  refine State.settleCycle_of_not_finished (Bool.eq_false_iff.2 fun hf => ?_)
  have hi := (Bool.and_eq_true_iff.1 hf).2
  simp only [State.enginesIdle, Bool.and_eq_true, beq_iff_eq] at hi
  obtain ⟨⟨⟨ha, hb⟩, hc⟩, hd⟩ := hi
  cases e
  · cases ha
  · cases hb
  · cases hc
  · cases hd

/-! ## A SCAN sample -/

/-- A SCAN sample is discarded whose generation has moved, or whose channel is not scanned (R13, R38). -/
theorem State.deliverScan_discarded {s : State} {r : BurstRecord} (x : Sample)
    (h : r.generation ≠ (s.chan r.channel).generation ∨ (s.chan r.channel).state = .off
      ∨ (s.chan r.channel).state = .uncal ∨ (s.chan r.channel).state = .calibrating) :
    s.deliverScan r x = s := by
  unfold State.deliverScan
  rcases h with hg | hs
  · exact if_neg hg
  · have unscanned : (s.chan r.channel).scanSample r.channel x = { channel := s.chan r.channel } := by
      unfold Channel.scanSample
      rcases hs with hs | hs | hs <;> simp [hs, ChannelState.isDetecting]
    rw [unscanned]
    simp [State.applyEffect, State.postAll]

theorem Channel.sampleInFault_wake (ch : Channel) (c : ChannelNo) (cls : SampleClass) :
    (ch.sampleInFault c cls).wake = false := by
  unfold Channel.sampleInFault
  split
  · rfl
  all_goals split <;> rfl

/-- No sample both wakes the part and leaves FAULT (R44, R53). -/
theorem Channel.scanSample_signals (ch : Channel) (c : ChannelNo) (x : Sample) :
    (ch.scanSample c x).wake = false ∨ (ch.scanSample c x).faultExit = false := by
  unfold Channel.scanSample
  dsimp only
  split
  · split
    · unfold Channel.faultSample
      split <;> exact .inl rfl
    · unfold Channel.noisySample
      dsimp only
      split <;> exact .inl rfl
    · unfold Channel.cleanSample
      dsimp only
      split <;> exact .inr rfl
  · split
    · exact .inl (Channel.sampleInFault_wake _ _ _)
    · exact .inl rfl

/-- The state in which the effect of a sample on its record is taken and its events are offered, before any
signal. -/
def State.sampled (s : State) (c : ChannelNo) (x : SampleEffect) : State :=
  { s.setChan c x.channel with
    queue := x.events.foldl (fun q b => q.offer s.table.length b) s.queue }

/-- The signals of a sample: a doze wake, or the automatic job of a FAULT exit, or none (R44, R53, R107). -/
theorem State.applyEffect_cases (s : State) (c : ChannelNo) {x : SampleEffect}
    (hx : x.wake = false ∨ x.faultExit = false) :
    (¬ (x.wake = true ∧ s.sched.mode = .doze
        ∧ ∃ en ∈ s.sched.scanList, en.channel = c ∧ en.doze = true) →
      ¬ (x.faultExit = true ∧ (s.sampled c x).autoDue c ∧ (s.sampled c x).scanningNow) →
        s.applyEffect c x = s.sampled c x)
      ∧ (x.wake = true ∧ s.sched.mode = .doze
          ∧ (∃ en ∈ s.sched.scanList, en.channel = c ∧ en.doze = true) →
        (s.sampled c x).LeavesDoze (s.applyEffect c x) .touch)
      ∧ (x.faultExit = true ∧ (s.sampled c x).autoDue c ∧ (s.sampled c x).scanningNow →
        ((s.sampled c x).withAutoJob c).WorkSignalled (s.applyEffect c x)) := by
  have hp : (s.setChan c x.channel).postAll x.events = s.sampled c x := State.postAll_eq _ _
  have hs : (s.sampled c x).sched = s.sched := rfl
  unfold State.applyEffect
  rw [hp]
  generalize s.sampled c x = u at hs ⊢
  obtain ⟨wakes, sleeps⟩ := u.touchSignal_cases c
  obtain ⟨exits, stays⟩ := u.autoJobAtFaultExit_cases c
  rw [hs] at wakes sleeps
  dsimp only
  refine ⟨fun hn hm => ?_, fun h => ?_, fun h => ?_⟩
  · have exited : (if x.faultExit then u.autoJobAtFaultExit c else u) = u := by
      split
      · exact stays fun h => hm ⟨‹_›, h⟩
      · rfl
    rw [exited]
    split
    · exact sleeps fun h => hn ⟨‹_›, h⟩
    · rfl
  · have hf : x.faultExit = false := hx.resolve_left (by simp [h.1])
    rw [if_pos h.1, if_neg (by simp [hf])]
    exact wakes h.2
  · have hw : x.wake = false := hx.resolve_right (by simp [h.1])
    rw [if_neg (by simp [hw]), if_pos h.1]
    exact exits h.2

end Sys2Proof.Machine

namespace Sys2Proof

open Machine

/-- Settles O32, by the signals of the sample, and by the offer to the engine that is freed. -/
theorem scanSampleIsDelivered : Obligations.ScanSampleIsDelivered := by
  refine ⟨?_, ?_⟩
  · intro s e other r timer counter c1 cycles cy he hp hc hl ho hb c x effect u wakes exits freed
    have delivered : s.deliver r x = s.deliverScan r x := by rw [State.deliver, hp]
    have applied : r.generation = (s.chan c).generation →
        s.deliver r x = s.applyEffect c effect := fun hg =>
      delivered.trans (if_pos hg)
    obtain ⟨quiet, waking, exiting⟩ :=
      s.applyEffect_cases c (Channel.scanSample_signals (s.chan c) c x)
    refine ⟨fun h => ?_, fun hg => ⟨fun hw hx => ?_, fun hw => ?_, fun hx => ?_⟩⟩
    · exact exec_burstComplete_busy he hl ho hb
        (delivered.trans (State.deliverScan_discarded x h)) ⟨rfl, cy, hc, rfl⟩
    · exact exec_burstComplete_busy he hl ho hb ((applied hg).trans (quiet hw hx))
        ⟨rfl, cy, hc, rfl⟩
    · have left := waking hw
      exact ⟨_, left, exec_burstComplete_busy he hl ho hb (applied hg)
        (left.inFlight (s := u) hc)⟩
    · have signalled := exiting hx
      exact ⟨_, signalled, exec_burstComplete_busy he hl ho hb (applied hg)
        (signalled.inFlight (s := u.withAutoJob c) hc hx.2.2)⟩
  · intro s e r timer counter c1 cycles cy c rest he hp hg hc hl hs
    have judged : s.judgeItem (.scan c)
        = some ((s.chan c).burst c .scan (s.chan c).current (s.chan c).config.windowCode) := if_pos hs
    rw [exec_burstComplete he, State.deliver, hp]
    dsimp only
    rw [State.deliverScan_discarded _ (.inl hg), State.engineFree_dispatches hc hl judged]
    rfl

end Sys2Proof
end

section
/-! A MEASURE sample joins its entry (O33), and a CAL sample moves its job (O34). -/

namespace Sys2Proof.Machine

/-! ## A MEASURE sample -/

/-- A MEASURE sample is discarded where its entry is gone (R15). -/
theorem State.deliverMeasure_discarded {s : State} {r : BurstRecord} {tag : Byte} (x : Sample)
    (h : ∀ p ∈ s.table, p.tag = tag → p.work.measured ≠ some r.channel) :
    s.deliverMeasure r tag x = s := by
  unfold State.deliverMeasure
  split
  · rename_i p hp
    obtain ⟨hm, ht⟩ := State.mem_of_entryOfTag hp
    split
    · rename_i c slot count results hw
      split
      · rename_i hc
        exact absurd (by rw [hw, LongWork.measured, hc]) (h p hm ht)
      · rfl
    · rfl
  · rfl

/-- The entry that stands for a tag between others, and its replacement there. -/
theorem State.entryOfTag_between {s : State} {before after : List PendingEntry} {p : PendingEntry}
    (hn : (s.table.map PendingEntry.tag).Nodup) (ht : s.table = before ++ p :: after) :
    s.entryOfTag p.tag = some p ∧ ∀ p', s.table.replace p p' = before ++ p' :: after := by
  refine ⟨State.entryOfTag_of_mem hn (by simp [ht]), fun p' => ?_⟩
  rw [ht] at hn ⊢
  exact table_replace p' hn

/-- A MEASURE sample joins its entry; the last one requested completes it, and may ask for an automatic
job (R15, R66, R169). -/
theorem State.deliverMeasure_joins {s : State} {r : BurstRecord} {tag : Byte} (x : Sample)
    {before after : List PendingEntry} {slot count : Nat} {results : List MeasureResult}
    (hn : (s.table.map PendingEntry.tag).Nodup)
    (ht : s.table
      = before ++ { tag := tag, work := .measure r.channel slot count results } :: after) :
    let work := LongWork.measure r.channel slot count
      (results ++ [{ raw := x.raw, noise := x.noise, cls := x.cls }])
    (results.length + 1 < count →
      s.deliverMeasure r tag x
        = { s with table := before ++ { tag := tag, work := work } :: after })
      ∧ (results.length + 1 = count →
        s.deliverMeasure r tag x
          = ({ s.afterAdmit (.complete tag .done work) with
              table := before ++ after } : State).autoJobIfScanned r.channel) := by
  intro work
  obtain ⟨hentry, hreplace⟩ := State.entryOfTag_between hn ht
  have hn' : ((before ++ { tag := tag, work := work } :: after).map PendingEntry.tag).Nodup := by
    rw [ht] at hn
    simpa using hn
  have hall : work.hasAllResults = decide (count ≤ results.length + 1) := by
    simp [work, LongWork.hasAllResults]
  have delivered : s.deliverMeasure r tag x
      = if work.hasAllResults then
          (({ s with table := before ++ { tag := tag, work := work } :: after } : State).completeEntry
            { tag := tag, work := work } .done).autoJobIfScanned r.channel
        else { s with table := before ++ { tag := tag, work := work } :: after } := by
    unfold State.deliverMeasure
    rw [hentry]
    dsimp only
    rw [if_pos rfl, hreplace]
  rw [delivered, hall]
  refine ⟨fun h => if_neg (by simpa using h), fun h => ?_⟩
  rw [if_pos (by simp [h])]
  unfold State.completeEntry
  rw [table_erase hn']
  rfl

/-! ## A CAL sample -/

/-- A CAL sample is discarded whose generation has moved, or whose job is no longer the channel's (R14). -/
theorem State.deliverCal_discarded {s : State} {r : BurstRecord} {serial : Nat} (x : Sample)
    (h : r.generation ≠ (s.chan r.channel).generation
      ∨ ∀ j, s.job r.channel = some j → j.serial ≠ serial) :
    s.deliverCal r serial x = s := by
  unfold State.deliverCal
  split
  · rename_i j hj
    exact if_neg fun hm => h.elim (fun hg => hg hm.1) fun hs => hs j hj hm.2
  · rfl

/-- A CAL sample that is accepted moves its job one step (R14, R69). -/
theorem State.deliverCal_accepted {s : State} {r : BurstRecord} {j : Job} (x : Sample)
    (hj : s.job r.channel = some j) (hg : r.generation = (s.chan r.channel).generation) :
    (∀ j' ch, j.accept r.channel (s.chan r.channel) x = .goesOn j' ch →
      s.deliverCal r j.serial x = (s.setChan r.channel ch).setJob r.channel (some j'))
      ∧ ∀ o ch events, j.accept r.channel (s.chan r.channel) x = .ends o ch events →
        s.deliverCal r j.serial x
          = (s.endJob r.channel j o ch events).closeEntryOf j.origin none := by
  unfold State.deliverCal
  rw [hj]
  dsimp only
  rw [if_pos ⟨hg, rfl⟩]
  refine ⟨fun j' ch ha => ?_, fun o ch events ha => ?_⟩ <;> rw [ha]

/-- The state in which a job has left the set, its record has its last value, and the record's events are
offered, before its result goes to its origin. -/
def State.jobEnded (s : State) (c : ChannelNo) (ch : Channel) (events : List Body) : State :=
  { (s.setChan c ch).setJob c none with
    queue := events.foldl (fun q b => q.offer s.table.length b) s.queue }

theorem State.chan_jobEnded (s : State) (c : ChannelNo) (ch : Channel) (events : List Body) :
    (s.jobEnded c ch events).chan c = ch := s.chan_setChan_self c ch

/-- An ended job hands its result to the CALIBRATE entry of its tag (R77). -/
theorem State.endJob_request (s : State) (c : ChannelNo) {j : Job} {tag : Byte}
    (h : j.origin = .request tag) (o : CalOutcome) (ch : Channel) (events : List Body) :
    s.endJob c j o ch events
      = (s.jobEnded c ch events).appendResult tag ⟨c, o, ch.config.windowCode⟩ := by
  have hp : ((s.setChan c ch).setJob c none).postAll events = s.jobEnded c ch events :=
    State.postAll_eq _ _
  simp only [State.endJob, State.handResult, hp, h, State.chan_jobEnded]

/-- An ended job of origin AUTOMATIC is reported in a RECAL event (R78). -/
theorem State.endJob_automatic (s : State) (c : ChannelNo) {j : Job} (h : j.origin = .automatic)
    (o : CalOutcome) (ch : Channel) (events : List Body) :
    s.endJob c j o ch events
      = (s.jobEnded c ch events).post (.recal c (.autoCal o ch.config.windowCode)) := by
  have hp : ((s.setChan c ch).setJob c none).postAll events = s.jobEnded c ch events :=
    State.postAll_eq _ _
  simp only [State.endJob, State.handResult, hp, h, State.chan_jobEnded]

/-- A CALIBRATE entry takes a result, and completes once it holds one for every subject (R77). -/
theorem State.appendResult_closes {s : State} {tag : Byte} {before after : List PendingEntry}
    {subjects : List ChannelNo} {results : List CalResult} (y : CalResult)
    (hn : (s.table.map PendingEntry.tag).Nodup)
    (ht : s.table = before ++ { tag := tag, work := .calibrate subjects results } :: after) :
    let work := LongWork.calibrate subjects (results ++ [y])
    (s.appendResult tag y).closeEntryOf (.request tag) none
      = if work.hasAllResults then
          { s.afterAdmit (.complete tag work.finalStatus work) with table := before ++ after }
        else { s with table := before ++ { tag := tag, work := work } :: after } := by
  intro work
  obtain ⟨hentry, hreplace⟩ := State.entryOfTag_between hn ht
  have hn' : ((before ++ { tag := tag, work := work } :: after).map PendingEntry.tag).Nodup := by
    rw [ht] at hn
    simpa using hn
  have appended : s.appendResult tag y
      = { s with table := before ++ { tag := tag, work := work } :: after } := by
    unfold State.appendResult
    rw [hentry]
    dsimp only
    rw [hreplace]
  obtain ⟨hentry', -⟩ := State.entryOfTag_between
    (s := { s with table := before ++ { tag := tag, work := work } :: after }) hn' rfl
  rw [appended]
  unfold State.closeEntryOf
  dsimp only at hentry' ⊢
  rw [hentry']
  dsimp only
  split
  · unfold State.completeEntry
    rw [table_erase hn']
    rfl
  · rfl

theorem LongWork.hasAllResults_calibrate (subjects : List ChannelNo) (results : List CalResult) :
    (LongWork.calibrate subjects results).hasAllResults = true
      ↔ ∀ d ∈ subjects, d ∈ results.map CalResult.channel := by
  simp [LongWork.hasAllResults]

theorem CalOutcome.isSuccess_iff (o : CalOutcome) :
    o.isSuccess = true ↔ o = .ok ∨ o = .low ∨ o = .high := by
  cases o <;> simp [CalOutcome.isSuccess]

theorem LongWork.finalStatus_calibrate (subjects : List ChannelNo) (results : List CalResult)
    {good : Prop} [Decidable good]
    (h : good ↔ ∀ y ∈ results, y.outcome = .ok ∨ y.outcome = .low ∨ y.outcome = .high) :
    (LongWork.calibrate subjects results).finalStatus = if good then .done else .partialDone := by
  have hg : (results.all fun r => r.outcome.isSuccess) = true ↔ good := by
    simp only [List.all_eq_true, CalOutcome.isSuccess_iff, h]
  unfold LongWork.finalStatus
  exact if_congr hg rfl rfl

end Sys2Proof.Machine

namespace Sys2Proof

open Machine

/-- Settles O33, by what the entry holds once the sample has joined it. -/
theorem measureSampleJoinsItsEntry : Obligations.MeasureSampleJoinsItsEntry := by
  intro s e other r timer counter c1 cycles cy tag he hp hc hl ho hb hn c x freed
  have delivered : s.deliver r x = s.deliverMeasure r tag x := by rw [State.deliver, hp]
  refine ⟨fun h => ?_, ?_⟩
  · exact exec_burstComplete_busy he hl ho hb
      (delivered.trans (State.deliverMeasure_discarded x h)) ⟨rfl, cy, hc, rfl⟩
  · intro before after slot count results ht work done due
    obtain ⟨joins, completes⟩ := State.deliverMeasure_joins x hn ht
    obtain ⟨asked, unasked⟩ := done.autoJobIfScanned_cases c
    refine ⟨fun h => ?_, fun h hd => ?_, fun h hd => ?_⟩
    · exact exec_burstComplete_busy he hl ho hb (delivered.trans (joins h)) ⟨rfl, cy, hc, rfl⟩
    · exact exec_burstComplete_busy he hl ho hb
        ((delivered.trans (completes h)).trans (unasked hd)) ⟨rfl, cy, hc, rfl⟩
    · have signalled := asked hd
      exact ⟨_, signalled, exec_burstComplete_busy he hl ho hb (delivered.trans (completes h))
        (signalled.inFlight (s := done.withAutoJob c) hc hd.2.2)⟩

/-- Settles O34, by the step of the job and the end of its entry. -/
theorem calibrationSampleMovesItsJob : Obligations.CalibrationSampleMovesItsJob := by
  intro s e other r timer counter c1 cycles cy serial he hp hc hl ho hb c ch x freed
  have delivered : s.deliver r x = s.deliverCal r serial x := by rw [State.deliver, hp]
  refine ⟨fun h => ?_, ?_⟩
  · exact exec_burstComplete_busy he hl ho hb
      (delivered.trans (State.deliverCal_discarded x h)) ⟨rfl, cy, hc, rfl⟩
  rintro j hj rfl hg
  obtain ⟨goes, ends⟩ := State.deliverCal_accepted x hj hg
  refine ⟨fun j' ch' ha => ?_, ?_⟩
  · exact exec_burstComplete_busy he hl ho hb (delivered.trans (goes j' ch' ha)) ⟨rfl, cy, hc, rfl⟩
  intro outcome ch' events ha ended
  have closing := delivered.trans (ends outcome ch' events ha)
  refine ⟨fun horigin => ?_, ?_⟩
  · rw [State.endJob_automatic s c horigin, horigin] at closing
    exact exec_burstComplete_busy he hl ho hb closing ⟨rfl, cy, hc, rfl⟩
  · intro tag before after subjects results horigin hn ht all good
    rw [State.endJob_request s c horigin, horigin] at closing
    have closed := closing.trans
      (State.appendResult_closes (s := ended) ⟨c, outcome, ch'.config.windowCode⟩ hn ht)
    refine ⟨fun hm => ?_, fun hall => ?_⟩
    · rw [if_neg fun h => ?_] at closed
      · exact exec_burstComplete_busy he hl ho hb closed ⟨rfl, cy, hc, rfl⟩
      · obtain ⟨d, hd, hmissing⟩ := hm
        exact hmissing ((LongWork.hasAllResults_calibrate _ _).1 h d hd)
    · rw [if_pos ((LongWork.hasAllResults_calibrate _ _).2 hall),
        LongWork.finalStatus_calibrate subjects all (good := good) Iff.rfl] at closed
      exact exec_burstComplete_busy he hl ho hb closed ⟨rfl, cy, hc, rfl⟩

end Sys2Proof
end

section
/-! The work lists, part by part and item by item, and what an offered item comes to (O45). -/

namespace Sys2Proof.Machine

/-! ## Counting with a key -/

/-- Of members with distinct keys, those that pass a test count 1 or 0 where it passes one key alone. -/
theorem countP_of_key {α β : Type} {l : List α} {q : α → Bool} (key : α → β) (k : β)
    (hn : (l.map key).Nodup) (hq : ∀ a ∈ l, q a = true → key a = k) {P : Prop} [Decidable P]
    (hP : P ↔ ∃ a ∈ l, q a = true) : l.countP q = if P then 1 else 0 := by
  have counted : ((∃ a ∈ l, q a = true) → l.countP q = 1)
      ∧ (¬ (∃ a ∈ l, q a = true) → l.countP q = 0) := by
    refine ⟨?_, fun h => List.countP_eq_zero.2 fun a ha hqa => h ⟨a, ha, hqa⟩⟩
    clear hP
    induction l with
    | nil => rintro ⟨a, ha, -⟩; cases ha
    | cons a rest ih =>
      obtain ⟨hfresh, hrest⟩ := List.nodup_cons.1 hn
      have hq' := fun b hb => hq b (List.mem_cons_of_mem a hb)
      cases ha : q a with
      | true =>
        intro _
        have none : rest.countP q = 0 := List.countP_eq_zero.2 fun b hb hqb =>
          hfresh (by
            rw [hq a List.mem_cons_self ha, ← hq' b hb hqb]
            exact List.mem_map_of_mem hb)
        rw [List.countP_cons_of_pos ha, none]
      | false =>
        rintro ⟨b, hb, hqb⟩
        rw [List.countP_cons_of_neg (by simp [ha])]
        refine ih hrest hq' ⟨b, ?_, hqb⟩
        rcases List.mem_cons.1 hb with rfl | hb
        · rw [ha] at hqb; cases hqb
        · exact hb
  split
  · exact counted.1 (hP.1 ‹_›)
  · exact counted.2 (mt hP.2 ‹_›)

/-- The same for the items that members with distinct keys give. -/
theorem countP_filterMap_of_key {α β γ : Type} {l : List α} {f : α → Option γ} {p : γ → Bool}
    (key : α → β) (k : β) (hn : (l.map key).Nodup)
    (hq : ∀ a ∈ l, ∀ b, f a = some b → p b = true → key a = k) {P : Prop} [Decidable P]
    (hP : P ↔ ∃ a ∈ l, ∃ b, f a = some b ∧ p b = true) :
    (l.filterMap f).countP p = if P then 1 else 0 := by
  have passes : ∀ a, ((f a).map p).getD false = true ↔ ∃ b, f a = some b ∧ p b = true := by
    intro a
    cases f a <;> simp
  rw [List.countP_filterMap]
  refine countP_of_key key k hn (fun a ha h => ?_) (by simpa only [passes] using hP)
  obtain ⟨b, hb, hpb⟩ := (passes a).1 h
  exact hq a ha b hb hpb

/-! ## The items of a channel -/

variable {s : State}

/-- A channel with a job is CALIBRATING, and not scanned (R63). -/
theorem State.calibrating_iff_job (h : ∀ c, jobFollowsState (s.chan c) (s.job c)) (c : ChannelNo) :
    (s.chan c).state = .calibrating ↔ ∃ j, s.job c = some j := by
  have := h c
  unfold jobFollowsState at this
  rw [← Option.isSome_iff_exists, this, beq_iff_eq]

theorem State.calItem_eq (h : ∀ c, jobFollowsState (s.chan c) (s.job c)) (c : ChannelNo) :
    s.calItem c = (s.job c).map fun j => .cal c j.serial := by
  unfold State.calItem
  split
  · rfl
  · rename_i hc
    cases hj : s.job c with
    | none => rfl
    | some j => exact absurd ((State.calibrating_iff_job h c).2 ⟨j, hj⟩) hc

theorem State.calItem_eq_some (h : ∀ c, jobFollowsState (s.chan c) (s.job c)) (c : ChannelNo)
    (item : WorkItem) :
    s.calItem c = some item ↔ ∃ j, s.job c = some j ∧ item = .cal c j.serial := by
  rw [State.calItem_eq h, Option.map_eq_some_iff]
  simp only [eq_comm]

/-- A scan-list entry gives a SCAN item of a scanned channel, and the CAL item of a job (R86). -/
theorem State.scanItem_eq_some (h : ∀ c, jobFollowsState (s.chan c) (s.job c)) (c : ChannelNo)
    (item : WorkItem) :
    s.scanItem c = some item ↔ ((s.chan c).state.isScanned = true ∧ item = .scan c)
      ∨ ∃ j, s.job c = some j ∧ item = .cal c j.serial := by
  unfold State.scanItem
  split
  · rename_i hs
    have hj : ¬ ∃ j, s.job c = some j := by
      rw [← State.calibrating_iff_job h]
      intro hc
      rw [hc] at hs
      cases hs
    constructor
    · rintro ⟨⟩
      exact .inl ⟨hs, rfl⟩
    · rintro (⟨-, rfl⟩ | ⟨j, hjc, -⟩)
      · rfl
      · exact absurd ⟨j, hjc⟩ hj
  · rename_i hs
    rw [State.calItem_eq_some h]
    exact ⟨.inr, fun hi => hi.elim (fun hi => absurd hi.1 hs) id⟩

/-- The item is a CAL item of a channel. -/
def WorkItem.isCalOf (c : ChannelNo) : WorkItem → Bool
  | .cal c' _ => c' == c
  | .scan _ => false
  | .measure _ _ => false

theorem WorkItem.isCalOf_iff (c : ChannelNo) (item : WorkItem) :
    item.isCalOf c = true ↔ ∃ serial, item = .cal c serial := by
  cases item <;> simp [WorkItem.isCalOf]

/-! ## The three parts -/

theorem State.measurePart_eq_some (e : EngineId) (item : WorkItem) :
    item ∈ s.measurePart e
      ↔ ∃ p ∈ s.table, ∃ c, p.work.measured = some c ∧ engineOf c = e ∧ item = .measure c p.tag := by
  unfold State.measurePart
  rw [List.mem_filterMap]
  refine exists_congr fun p => and_congr_right fun _ => ?_
  cases p.work.measured <;> simp [eq_comm]

/-- The entries of the scan part have distinct channels (R82). -/
theorem State.scanEntries_nodup (h : s.sched.SettingsKept) (kind : CycleKind) :
    ((s.scanEntries kind).map ScanEntry.channel).Nodup := by
  obtain ⟨-, -, -, -, -, -, hn⟩ := h
  cases kind
  · exact hn
  · exact hn.sublist (List.filter_sublist.map _)
  · exact List.nodup_nil

theorem State.mem_scanEntries (kind : CycleKind) (en : ScanEntry) :
    en ∈ s.scanEntries kind
      ↔ en ∈ s.sched.scanList ∧ (kind = .active ∨ (kind = .doze ∧ en.doze = true)) := by
  cases kind <;> simp [State.scanEntries]

/-- The entries of the scan part, on one engine, that give an item that passes a test. -/
theorem State.countP_scanPart (h : s.sched.SettingsKept) {kind : CycleKind} {e : EngineId}
    {c : ChannelNo} (hc : engineOf c = e) {p : WorkItem → Bool}
    (hp : ∀ d item, s.scanItem d = some item → p item = true → d = c) {P : Prop} [Decidable P]
    (hP : P ↔ (∃ en ∈ s.scanEntries kind, en.channel = c)
      ∧ ∃ item, s.scanItem c = some item ∧ p item = true) :
    (s.scanPart kind e).countP p = if P then 1 else 0 := by
  refine countP_filterMap_of_key ScanEntry.channel c
    ((State.scanEntries_nodup h kind).sublist (List.filter_sublist.map _))
    (fun en _ item hi hpi => hp _ item hi hpi) (hP.trans ⟨?_, ?_⟩)
  · rintro ⟨⟨en, hen, rfl⟩, item, hi, hpi⟩
    exact ⟨en, List.mem_filter.2 ⟨hen, beq_iff_eq.2 hc⟩, item, hi, hpi⟩
  · rintro ⟨en, hen, item, hi, hpi⟩
    have := hp _ item hi hpi
    subst this
    exact ⟨⟨en, (List.mem_filter.1 hen).1, rfl⟩, item, hi, hpi⟩

/-- The calibration part counts the channels that the scan part leaves out. -/
theorem State.countP_calPart {kind : CycleKind} {e : EngineId} {c : ChannelNo} (hc : engineOf c = e)
    {p : WorkItem → Bool} (hp : ∀ d item, s.calItem d = some item → p item = true → d = c)
    {P : Prop} [Decidable P]
    (hP : P ↔ (¬ ∃ en ∈ s.scanEntries kind, en.channel = c)
      ∧ ∃ item, s.calItem c = some item ∧ p item = true) :
    (s.calPart kind e).countP p = if P then 1 else 0 := by
  have mem : ∀ d, d ∈ allChannels.filter (fun d =>
        engineOf d == e && !((s.scanEntries kind).any fun en => en.channel == d))
      ↔ engineOf d = e ∧ ¬ ∃ en ∈ s.scanEntries kind, en.channel = d := fun d => by
    simp [allChannels]
  refine countP_filterMap_of_key id c (by rw [List.map_id]; exact (List.nodup_finRange 24).filter _)
    (fun d _ item hi hpi => hp d item hi hpi) (hP.trans ⟨?_, ?_⟩)
  · rintro ⟨hn, item, hi, hpi⟩
    exact ⟨c, (mem c).2 ⟨hc, hn⟩, item, hi, hpi⟩
  · rintro ⟨d, hd, item, hi, hpi⟩
    have := hp d item hi hpi
    subst this
    exact ⟨((mem d).1 hd).2, item, hi, hpi⟩

/-- A part that gives none of the items that pass counts none. -/
theorem countP_eq_zero_of_ne {l : List WorkItem} {p : WorkItem → Bool}
    (h : ∀ item ∈ l, p item = false) : l.countP p = 0 :=
  List.countP_eq_zero.2 fun item hi => by simp [h item hi]

theorem State.calPart_item {kind : CycleKind} {e : EngineId} {item : WorkItem}
    (h : ∀ c, jobFollowsState (s.chan c) (s.job c)) (hi : item ∈ s.calPart kind e) :
    ∃ c serial, item = .cal c serial := by
  obtain ⟨c, -, hc⟩ := List.mem_filterMap.1 hi
  obtain ⟨j, -, rfl⟩ := (State.calItem_eq_some h c item).1 hc
  exact ⟨c, j.serial, rfl⟩

theorem State.scanPart_item {kind : CycleKind} {e : EngineId} {item : WorkItem}
    (h : ∀ c, jobFollowsState (s.chan c) (s.job c)) (hi : item ∈ s.scanPart kind e) :
    (∃ c, item = .scan c) ∨ ∃ c serial, item = .cal c serial := by
  obtain ⟨en, -, hen⟩ := List.mem_filterMap.1 hi
  rcases (State.scanItem_eq_some h _ item).1 hen with ⟨-, rfl⟩ | ⟨j, -, rfl⟩
  · exact .inl ⟨_, rfl⟩
  · exact .inr ⟨_, j.serial, rfl⟩

/-! ## The counts of a list -/

section Counts

variable {kind : CycleKind} {e : EngineId} {c : ChannelNo}
  (hj : ∀ c, jobFollowsState (s.chan c) (s.job c)) (hk : s.sched.SettingsKept) (hc : engineOf c = e)

include hj hk hc

/-- A scanned channel in the scan part has one SCAN item, and no other channel has one (R86). -/
theorem State.countP_scan_buildList {P : Prop} [Decidable P]
    (hP : P ↔ (s.chan c).state.isScanned = true ∧ ∃ en ∈ s.scanEntries kind, en.channel = c) :
    ((s.buildList kind e).countP fun item => item == .scan c) = if P then 1 else 0 := by
  have scanned : ∀ d, (∃ item, s.scanItem d = some item ∧ (item == .scan c) = true)
      ↔ d = c ∧ (s.chan c).state.isScanned = true := by
    intro d
    simp only [State.scanItem_eq_some hj, beq_iff_eq]
    constructor
    · rintro ⟨_, ⟨hs, rfl⟩ | ⟨j, -, rfl⟩, h⟩ <;> cases h
      exact ⟨rfl, hs⟩
    · rintro ⟨rfl, hs⟩
      exact ⟨_, .inl ⟨hs, rfl⟩, rfl⟩
  have inScan := State.countP_scanPart (kind := kind) hk hc (p := fun item => item == .scan c)
    (fun d item hi hpi => ((scanned d).1 ⟨item, hi, hpi⟩).1) (P := P)
    (hP.trans (by rw [scanned]; tauto))
  have inCal : ((s.calPart kind e).countP fun item => item == .scan c) = 0 :=
    countP_eq_zero_of_ne fun item hi => by
      obtain ⟨d, n, rfl⟩ := State.calPart_item hj hi
      rfl
  have inMeasure : ((s.measurePart e).countP fun item => item == .scan c) = 0 :=
    countP_eq_zero_of_ne fun item hi => by
      obtain ⟨p, -, d, -, -, rfl⟩ := (State.measurePart_eq_some e item).1 hi
      rfl
  rw [State.buildList, List.countP_append, List.countP_append, inScan, inCal, inMeasure, Nat.add_zero]

/-- A CALIBRATING channel has one CAL item, in the scan part or behind it, and no other has one (R86). -/
theorem State.countP_cal_buildList :
    (s.buildList kind e).countP (WorkItem.isCalOf c)
      = if (s.chan c).state = .calibrating then 1 else 0 := by
  classical
  have calibrates : ∀ d, (∃ item, s.calItem d = some item ∧ item.isCalOf c = true)
      ↔ d = c ∧ (s.chan c).state = .calibrating := by
    intro d
    simp only [State.calItem_eq_some hj, WorkItem.isCalOf_iff, State.calibrating_iff_job hj]
    constructor
    · rintro ⟨_, ⟨j, hjd, rfl⟩, n, h⟩
      cases h
      exact ⟨rfl, j, hjd⟩
    · rintro ⟨rfl, j, hjd⟩
      exact ⟨_, ⟨j, hjd, rfl⟩, j.serial, rfl⟩
  have scans : ∀ d, (∃ item, s.scanItem d = some item ∧ item.isCalOf c = true)
      ↔ d = c ∧ (s.chan c).state = .calibrating := by
    intro d
    rw [← calibrates d]
    simp only [State.scanItem_eq_some hj, State.calItem_eq_some hj]
    constructor
    · rintro ⟨_, ⟨-, rfl⟩ | hi, hpi⟩
      · cases hpi
      · exact ⟨_, hi, hpi⟩
    · rintro ⟨_, hi, hpi⟩
      exact ⟨_, .inr hi, hpi⟩
  have inScan := State.countP_scanPart (kind := kind) hk hc (p := WorkItem.isCalOf c)
    (fun d item hi hpi => ((scans d).1 ⟨item, hi, hpi⟩).1)
    (P := (∃ en ∈ s.scanEntries kind, en.channel = c) ∧ (s.chan c).state = .calibrating)
    (by rw [scans]; tauto)
  have inCal := State.countP_calPart (kind := kind) hc (p := WorkItem.isCalOf c)
    (fun d item hi hpi => ((calibrates d).1 ⟨item, hi, hpi⟩).1)
    (P := (¬ ∃ en ∈ s.scanEntries kind, en.channel = c) ∧ (s.chan c).state = .calibrating)
    (by rw [calibrates]; tauto)
  have inMeasure : (s.measurePart e).countP (WorkItem.isCalOf c) = 0 :=
    countP_eq_zero_of_ne fun item hi => by
      obtain ⟨p, -, d, -, -, rfl⟩ := (State.measurePart_eq_some e item).1 hi
      rfl
  rw [State.buildList, List.countP_append, List.countP_append, inScan, inCal, inMeasure]
  by_cases hs : (s.chan c).state = .calibrating <;>
    by_cases hl : ∃ en ∈ s.scanEntries kind, en.channel = c <;> simp [hs, hl]

/-- Every job has its CAL item on the list of its engine (R86). -/
theorem State.cal_mem_buildList {j : Job} (h : s.job c = some j) :
    .cal c j.serial ∈ s.buildList kind e := by
  have counted := State.countP_cal_buildList (kind := kind) hj hk hc
  rw [if_pos ((State.calibrating_iff_job hj c).2 ⟨j, h⟩)] at counted
  obtain ⟨item, hi, hp⟩ := List.countP_pos_iff.1 (by rw [counted]; exact Nat.one_pos)
  obtain ⟨n, rfl⟩ := (WorkItem.isCalOf_iff c item).1 hp
  have job : ∃ j', s.job c = some j' ∧ WorkItem.cal c n = .cal c j'.serial := by
    simp only [State.buildList, List.mem_append] at hi
    rcases hi with (hi | hi) | hi
    · obtain ⟨en, -, hen⟩ := List.mem_filterMap.1 hi
      rcases (State.scanItem_eq_some hj _ _).1 hen with ⟨-, hx⟩ | ⟨j', hj', hx⟩ <;> cases hx
      exact ⟨j', hj', rfl⟩
    · obtain ⟨d, -, hd⟩ := List.mem_filterMap.1 hi
      obtain ⟨j', hj', hx⟩ := (State.calItem_eq_some hj d _).1 hd
      cases hx
      exact ⟨j', hj', rfl⟩
    · obtain ⟨p, -, d, -, -, hx⟩ := (State.measurePart_eq_some e _).1 hi
      cases hx
  obtain ⟨j', hj', hx⟩ := job
  rw [h] at hj'
  cases hj'
  rwa [hx] at hi

omit hk in
/-- Every pending MEASURE of a channel has its MEASURE item (R86). -/
theorem State.countP_measure_buildList (hn : (s.table.map PendingEntry.tag).Nodup) (tag : Byte)
    {P : Prop} [Decidable P] (hP : P ↔ ∃ p ∈ s.table, p.tag = tag ∧ p.work.measured = some c) :
    ((s.buildList kind e).countP fun item => item == .measure c tag) = if P then 1 else 0 := by
  have inScan : ((s.scanPart kind e).countP fun item => item == .measure c tag) = 0 :=
    countP_eq_zero_of_ne fun item hi => by
      rcases State.scanPart_item hj hi with ⟨d, rfl⟩ | ⟨d, n, rfl⟩ <;> rfl
  have inCal : ((s.calPart kind e).countP fun item => item == .measure c tag) = 0 :=
    countP_eq_zero_of_ne fun item hi => by
      obtain ⟨d, n, rfl⟩ := State.calPart_item hj hi
      rfl
  have inMeasure : ((s.measurePart e).countP fun item => item == .measure c tag)
      = if P then 1 else 0 := by
    refine countP_filterMap_of_key PendingEntry.tag tag hn (fun p _ item hi hpi => ?_)
      (hP.trans (exists_congr fun p => and_congr_right fun _ => ?_))
    all_goals cases hm : p.work.measured with | none => ?_ | some d => ?_
    · simp [hm] at hi
    · simp only [hm, Option.ite_none_right_eq_some, Option.some.injEq] at hi
      obtain ⟨-, rfl⟩ := hi
      rw [beq_iff_eq] at hpi
      cases hpi
      rfl
    · simp
    · by_cases hd : engineOf d = e
      · simp [hd, and_comm]
      · have : d ≠ c := by
          rintro rfl
          exact hd hc
        simp [hd, this]
  rw [State.buildList, List.countP_append, List.countP_append, inScan, inCal, inMeasure, Nat.zero_add]

end Counts

/-! ## The statement -/

/-- The list of an engine, part by part, as the statement writes it (R86 to R88). -/
theorem State.buildList_eq (hj : ∀ c, jobFollowsState (s.chan c) (s.job c)) (kind : CycleKind)
    (e : EngineId) :
    s.buildList kind e
      = (((s.scanEntries kind).filter fun en => engineOf en.channel == e).filterMap fun en =>
          if (s.chan en.channel).state.isScanned then some (.scan en.channel)
          else (s.job en.channel).map fun j => .cal en.channel j.serial)
        ++ (((List.finRange 24).filter fun c =>
          engineOf c == e && !((s.scanEntries kind).map ScanEntry.channel).contains c).filterMap
            fun c => (s.job c).map fun j => .cal c j.serial)
        ++ s.measurePart e := by
  have hcal : s.calItem = fun c => (s.job c).map fun j => .cal c j.serial :=
    funext (State.calItem_eq hj)
  have hleft : ∀ c, ((s.scanEntries kind).map ScanEntry.channel).contains c
      = (s.scanEntries kind).any fun en => en.channel == c := fun c => by
    rw [List.contains_eq_any_beq, List.any_map]
    simp only [Function.comp_def, Bool.beq_comm]
  unfold State.buildList State.scanPart State.calPart State.scanItem
  simp only [hcal, hleft, allChannels]

/-- A CAL burst is a burst of the job's slot and window code (R3). -/
theorem Channel.calBurst_eq (ch : Channel) (c : ChannelNo) (j : Job) :
    (j.phase = .search → ch.calBurst c j = ch.burst c (.cal j.serial) 0 j.mid)
      ∧ (j.phase = .acquire →
        ch.calBurst c j = ch.burst c (.cal j.serial) j.acquireSlot ch.config.windowCode) := by
  unfold Channel.calBurst
  refine ⟨fun h => ?_, fun h => ?_⟩ <;> rw [h]

/-- A SCAN item of a CALIBRATING channel is dispatched as a CAL burst (R90). -/
theorem State.judgeItem_scan_calibrating (hj : ∀ c, jobFollowsState (s.chan c) (s.job c))
    {c : ChannelNo} {j : Job} (h : s.job c = some j) :
    s.judgeItem (.scan c) = some ((s.chan c).calBurst c j) := by
  have hc := (State.calibrating_iff_job hj c).2 ⟨j, h⟩
  simp [State.judgeItem, hc, h, ChannelState.isScanned]

/-- A CAL item is dispatched while its job is the channel's (R90). -/
theorem State.judgeItem_cal {c : ChannelNo} {j : Job} (h : s.job c = some j) (serial : Nat) :
    s.judgeItem (.cal c serial)
      = if j.serial = serial then some ((s.chan c).calBurst c j) else none := by
  simp only [State.judgeItem, h]

/-- A MEASURE item is dispatched while its entry is pending (R90). -/
theorem State.judgeItem_measure (hn : (s.table.map PendingEntry.tag).Nodup) {c : ChannelNo}
    {tag : Byte} {slot count : Nat} {results : List MeasureResult}
    (h : { tag := tag, work := .measure c slot count results } ∈ s.table) :
    s.judgeItem (.measure c tag)
      = some ((s.chan c).burst c (.measure tag) slot (s.chan c).config.windowCode) := by
  have he := State.entryOfTag_of_mem hn h
  simp only at he
  simp [State.judgeItem, he]

/-- A MEASURE item whose entry is gone is skipped (R90). -/
theorem State.judgeItem_measure_gone {c : ChannelNo} {tag : Byte}
    (h : ∀ p ∈ s.table, p.tag = tag → p.work.measured ≠ some c) :
    s.judgeItem (.measure c tag) = none := by
  unfold State.judgeItem
  dsimp only
  split
  · rename_i p hp
    obtain ⟨hm, ht⟩ := State.mem_of_entryOfTag hp
    split
    · rename_i c' slot count results hw
      exact if_neg fun hc => h p hm ht (by rw [hw, LongWork.measured, hc])
    · rfl
  · rfl

end Sys2Proof.Machine

namespace Sys2Proof

open Machine

/-- Settles O45, part by part, count by count, and item by item. -/
theorem workListsFollowTheBuild : Obligations.WorkListsFollowTheBuild := by
  refine ⟨?_, ?_⟩
  · intro s kind e hw hk taken cal
    obtain ⟨hj, ⟨-, hn⟩, -⟩ := hw
    have htaken : taken = s.scanEntries kind := by
      cases kind <;> simp [taken, State.scanEntries]
    refine ⟨?_, fun _ hi => State.engineOf_of_mem_buildList hi, fun c hc => ⟨?_, ?_, ?_, ?_⟩⟩
    · have hmeasure : s.measurePart e = s.table.filterMap fun p =>
          match p.work with
          | .calibrate _ _ => none
          | .measure c _ _ _ => if engineOf c = e then some (.measure c p.tag) else none := by
        unfold State.measurePart
        refine List.filterMap_congr fun p _ => ?_
        cases p.work <;> rfl
      have list := State.buildList_eq hj kind e
      rw [hmeasure, ← htaken] at list
      exact list
    · refine State.countP_scan_buildList hj hk hc (and_congr_right fun _ => exists_congr fun en => ?_)
      rw [State.mem_scanEntries]
      tauto
    · exact State.countP_cal_buildList hj hk hc
    · exact fun j h => State.cal_mem_buildList hj hk hc h
    · exact fun tag => State.countP_measure_buildList hj hc hn tag Iff.rfl
  · intro s c hw ch record calBurst
    obtain ⟨hj, ⟨-, hn⟩, -⟩ := hw
    have hburst : ∀ j, (s.chan c).calBurst c j = calBurst j := fun j => by
      obtain ⟨hs, ha⟩ := (s.chan c).calBurst_eq c j
      cases hp : j.phase with
      | search => simp only [hs hp, calBurst, hp]; rfl
      | acquire => simp only [ha hp, calBurst, hp]; rfl
    refine ⟨fun h => if_pos h, fun j h => ?_, fun h => ?_, fun j n h => ?_, fun n h => ?_,
      fun tag slot count results h => State.judgeItem_measure hn h,
      fun tag h => State.judgeItem_measure_gone h⟩
    · rw [State.judgeItem_scan_calibrating hj h, hburst]
    · have hstate : (s.chan c).state = .off ∨ (s.chan c).state = .uncal := h
      rcases hstate with hs | hs <;> simp [State.judgeItem, hs, ChannelState.isScanned]
    · rw [State.judgeItem_cal h, hburst]
    · simp only [State.judgeItem, h]

end Sys2Proof
end

section
/-! SET_CHANNEL: what it does to the record, and the automatic job that may follow (O10 to O12). -/

namespace Sys2Proof.Machine

/-! ## The record -/

theorem ChannelState.isTouch_iff (st : ChannelState) :
    st.isTouch = true ↔ st = .pressing ∨ st = .touched ∨ st = .releasing := by
  cases st <;> simp [ChannelState.isTouch]

theorem ReleaseNote.toReconfig_eq (n : ReleaseNote) :
    n.toReconfig = if n = .timeout then .timeout else .reconfig := by
  cases n <;> rfl

theorem ChannelConfig.measurementDiffers_iff (g h : ChannelConfig) :
    g.measurementDiffers h = true ↔ g.hopList ≠ h.hopList ∨ g.windowMode ≠ h.windowMode
      ∨ g.windowCode ≠ h.windowCode ∨ g.target ≠ h.target ∨ g.tolerance ≠ h.tolerance := by
  simp only [ChannelConfig.measurementDiffers, Bool.or_eq_true, bne_iff_ne, or_assoc]

/-- Emptied or rebuilt, the slots of a reconfigured channel are those of its new hop list (R31). -/
theorem Channel.slotsFor_eq {ch : Channel} (hm : ch.slots.map Slot.step = ch.config.hopList)
    (g : ChannelConfig) :
    ch.slotsFor g = g.hopList.map fun h =>
      { step := h, baseline := none, filtered := none, reseed := false } := by
  unfold Channel.slotsFor
  split
  · rename_i same
    rw [same, ← hm, List.map_map]
    rfl
  · rfl

/-- The discard of the learned state (R31). -/
theorem Channel.reconfigure_eq {ch : Channel} (hm : ch.slots.map Slot.step = ch.config.hopList)
    (g : ChannelConfig) :
    ch.reconfigure g
      = { config := g
          slots := g.hopList.map fun h =>
            { step := h, baseline := none, filtered := none, reseed := false }
          state := if g.enabled then .uncal else .off
          generation := ch.generation + 1
          current := 0
          debounce := 0
          noisyRun := 0
          noiseOn := false
          faultRun := 0
          goodRun := 0
          driftCount := 0
          negRun := 0
          maxOn := none
          lastRaw := ch.lastRaw
          lastNoise := ch.lastNoise
          lastDelta := none
          note :=
            if ch.state = .pressing ∨ ch.state = .touched ∨ ch.state = .releasing then
              if ch.note = .timeout then .timeout else .reconfig
            else ch.note } := by
  simp only [Channel.reconfigure, Channel.slotsFor_eq hm, Channel.noteReconfig,
    ChannelState.isTouch_iff, ReleaseNote.toReconfig_eq]

/-! ## The request -/

theorem State.perform_of_passed {α : Type} {s : State} {tag : Byte} {x : α}
    {checks : α → List (Bool × Status)} {effect : α → State} (h : firstFailure (checks x) = none) :
    s.perform tag (.ok x) checks effect = effect x := by
  simp only [State.perform, h]

theorem State.perform_of_failed {α : Type} {s : State} {tag : Byte} {x : α}
    {checks : α → List (Bool × Status)} {effect : α → State} {status : Status}
    (h : firstFailure (checks x) = some status) :
    s.perform tag (.ok x) checks effect = s.afterReply tag status := by
  simp only [State.perform, h, State.reply_eq]

theorem State.channelBusy_iff (s : State) (c : ChannelNo) :
    s.channelBusy c = true ↔
      (s.chan c).state = .calibrating ∨ ∃ e ∈ s.table, e.work.measured = some c := by
  simp [State.channelBusy, State.measurePending]

/-- No automatic job is due exactly where one of the four conditions of R34 and R66 fails. -/
theorem State.noAutoJob_iff (s : State) (c : ChannelNo) :
    s.NoAutoJob c ↔ ¬ (s.autoDue c ∧ s.listed c ∧ s.scanningNow) := by
  rw [← State.wantsAutoJob_iff, ← State.inScanList_iff]
  simp only [State.NoAutoJob, State.wantsAutoJob, State.scanningNow, Bool.and_eq_true, beq_iff_eq,
    Bool.not_eq_true', ← Bool.not_eq_true]
  tauto

section
variable {s : State} {i : SlotId} {f : Frame} {c : ChannelNo}

theorem exec_setChannel (h : s.Takes 0x10 i f) :
    exec .setChannel s = .next ((s.afterTake i).doSetChannel f) :=
  congrArg _ (State.takeRequest_of_takes h rfl)

theorem State.doSetChannel_range (h29 : f.payload.length = 29) (h : ¬ SpellsConfig f.payload) :
    s.doSetChannel f = s.afterReply f.tag .range := by
  unfold State.doSetChannel
  rw [parseSetChannel_unspelled h29 h, State.perform_error]

theorem State.doSetChannel_busy (h : SpellsConfig f.payload)
    (hc : c.val = (f.payload.getD 0 0).toNat) (hb : s.channelBusy c = true) :
    s.doSetChannel f = s.afterReply f.tag .busy := by
  unfold State.doSetChannel
  rw [parseSetChannel_spelled h c hc]
  exact State.perform_of_failed (by simp [hb])

theorem State.doSetChannel_stores (h : SpellsConfig f.payload)
    (hc : c.val = (f.payload.getD 0 0).toNat) (hb : s.channelBusy c = false) :
    s.doSetChannel f
      = ((s.setChan c ((s.chan c).configure (spelledConfig f.payload))).autoJobIfScanned c).afterReply
          f.tag .ok := by
  unfold State.doSetChannel
  rw [parseSetChannel_spelled h c hc]
  exact State.perform_of_passed (by simp [hb])

end

end Sys2Proof.Machine

namespace Sys2Proof

open Machine

/-- Settles O12: each branch of the comparison is one of the model's, read as a condition on fields. -/
theorem configureFollowsComparison : Obligations.ConfigureFollowsComparison := by
  intro ch g hm
  have discards : (g.measurementDiffers ch.config || (ch.config.enabled && !g.enabled)) = true ↔
      (g.hopList ≠ ch.config.hopList ∨ g.windowMode ≠ ch.config.windowMode
        ∨ g.windowCode ≠ ch.config.windowCode ∨ g.target ≠ ch.config.target
        ∨ g.tolerance ≠ ch.config.tolerance ∨ (ch.config.enabled = true ∧ g.enabled = false)) := by
    simp only [Bool.or_eq_true, ChannelConfig.measurementDiffers_iff, Bool.and_eq_true,
      Bool.not_eq_true', or_assoc]
  have enables : (!ch.config.enabled && g.enabled) = true ↔
      ch.config.enabled = false ∧ g.enabled = true := by
    simp only [Bool.and_eq_true, Bool.not_eq_true']
  unfold Channel.configure
  split
  · rename_i hd
    rw [if_pos (discards.2 hd), Channel.reconfigure_eq hm]
  · rename_i hd
    rw [if_neg (mt discards.1 hd)]
    split
    · rename_i he
      rw [if_pos (enables.2 he)]
    · rename_i he
      rw [if_neg (mt enables.1 he)]

/-- Settles O10, by the checks of the request in their order. -/
theorem setChannelStoresConfiguration : Obligations.SetChannelStoresConfiguration := by
  intro s i f ht h29 g
  rw [exec_setChannel ht]
  refine ⟨fun hn => ?_, fun c hc hp => ?_⟩
  · rw [State.doSetChannel_range h29 hn]
  · split
    · rename_i busy
      rw [State.doSetChannel_busy hp hc (((s.afterTake i).channelBusy_iff c).2 busy)]
    · rename_i free
      intro hno
      have undue : ((s.afterTake i).setChan c ((s.chan c).configure g)).autoJobIfScanned c
          = (s.afterTake i).setChan c ((s.chan c).configure g) :=
        (State.autoJobIfScanned_cases _ c).2 ((State.noAutoJob_iff _ c).1 hno)
      have idle : (s.afterTake i).channelBusy c = false :=
        Bool.eq_false_iff.2 (mt ((s.afterTake i).channelBusy_iff c).1 free)
      rw [State.doSetChannel_stores hp hc idle, State.afterTake_chan, undue]

/-- Settles O11: the configuration stored, the job is due, and its creation is signalled as work. -/
theorem setChannelStartsAutomaticJob : Obligations.SetChannelStartsAutomaticJob := by
  intro s i f c ht hc hp hcal hm hu ha hl hs
  have free : (s.afterTake i).channelBusy c = false :=
    Bool.eq_false_iff.2 fun hb => (((s.afterTake i).channelBusy_iff c).1 hb).elim hcal
      fun ⟨e, he, hec⟩ => hm e he hec
  have config : ((s.chan c).configure (spelledConfig f.payload)).config.autocal = true := by
    unfold Channel.configure
    split
    · exact ha
    · split <;> exact ha
  have due : ((s.afterTake i).setChan c
      ((s.chan c).configure (spelledConfig f.payload))).autoDue c :=
    ⟨by rwa [State.chan_setChan_self], by rwa [State.chan_setChan_self], hm⟩
  refine ⟨_, (State.autoJobIfScanned_cases _ c).1 ⟨due, hl, hs⟩, ?_⟩
  rw [exec_setChannel ht, State.doSetChannel_stores hp hc free, State.afterTake_chan]

end Sys2Proof
end

section
/-! GET_CHANNEL and the layout of its view (O13). -/

namespace Sys2Proof.Machine

/-! ## Bytes -/

theorem flagBit_or_bits (a b c : Bool) :
    let flags := flagBit 0 a ||| flagBit 1 b ||| flagBit 2 c
    flags.getLsbD 0 = a ∧ flags.getLsbD 1 = b ∧ flags.getLsbD 2 = c := by
  cases a <;> cases b <;> cases c <;> decide

/-- The three low bits of a flag byte are its flags, whatever the free byte. -/
theorem withFreeHighBits_getLsbD (flags free : Byte) {n : Nat} (h : n < 3) :
    (withFreeHighBits flags free).getLsbD n = flags.getLsbD n := by
  have low : (0x07 : Byte).getLsbD n = true ∧ (0xF8 : Byte).getLsbD n = false := by
    match n, h with
    | 0, _ | 1, _ | 2, _ => decide
  obtain ⟨kept, masked⟩ := low
  rw [withFreeHighBits, BitVec.getLsbD_or, BitVec.getLsbD_and, BitVec.getLsbD_and, kept, masked]
  simp

/-- The flags of a view's byte, read bit by bit. -/
theorem withFreeHighBits_bits (a b c : Bool) (free : Byte) :
    let live := withFreeHighBits (flagBit 0 a ||| flagBit 1 b ||| flagBit 2 c) free
    live.getLsbD 0 = a ∧ live.getLsbD 1 = b ∧ live.getLsbD 2 = c := by
  obtain ⟨ha, hb, hc⟩ := flagBit_or_bits a b c
  exact ⟨(withFreeHighBits_getLsbD _ _ (by decide)).trans ha,
    (withFreeHighBits_getLsbD _ _ (by decide)).trans hb,
    (withFreeHighBits_getLsbD _ _ (by decide)).trans hc⟩

theorem beInt16_eq (z : Int) :
    beInt16 z = [(BitVec.ofInt 16 z).extractLsb' 8 8, (BitVec.ofInt 16 z).extractLsb' 0 8] := by
  unfold beInt16 be16
  generalize BitVec.ofInt 16 z = w
  have high : BitVec.ofNat 8 (w.toNat / 256) = w.extractLsb' 8 8 := by
    apply BitVec.eq_of_toNat_eq
    simp [BitVec.extractLsb'_toNat, Nat.shiftRight_eq_div_pow]
  have low : BitVec.ofNat 8 w.toNat = w.extractLsb' 0 8 := by
    apply BitVec.eq_of_toNat_eq
    simp [BitVec.extractLsb'_toNat]
  rw [high, low]

/-! ## The view -/

theorem hopBytes_getElem? {hops : List Nat} {free j h : Nat} (hj : j < 4) (hh : hops[j]? = some h) :
    (hopBytes hops free)[j]? = some (BitVec.ofNat 8 h) := by
  simp [hopBytes, hj, hh, byteOf]

/-- The slot groups of a view, one for each slot record. -/
def Channel.groups (ch : Channel) (free : Nat) : List (List Byte) :=
  ch.slots.zipIdx.map fun p => p.1.group (Config.freeByte (free + 5 + p.2))

theorem Channel.groups_length (ch : Channel) (free : Nat) :
    (ch.groups free).length = ch.slots.length := by simp [Channel.groups]

theorem Channel.groups_getElem? {ch : Channel} {free j : Nat} {sl : Slot}
    (h : ch.slots[j]? = some sl) :
    (ch.groups free)[j]? = some (sl.group (Config.freeByte (free + 5 + j))) := by
  simp [Channel.groups, h]

/-! ## The request -/

theorem parseChannel_of_val {b : Byte} {c : ChannelNo} (h : c.val = b.toNat) :
    parseChannel [b] = .ok c := by
  have named : channelOf (byteAt [b] 0) = some c := by
    rw [show byteAt [b] 0 = c.val from h.symm, channelOf_val]
  unfold parseChannel
  rw [if_pos List.length_singleton, named]

theorem parseChannel_of_ge {b : Byte} (h : 24 ≤ b.toNat) : parseChannel [b] = .error .range := by
  have unnamed : channelOf (byteAt [b] 0) = none := dif_neg (Nat.not_lt.2 h)
  unfold parseChannel
  rw [if_pos List.length_singleton, unnamed]

theorem exec_getChannel {s : State} {i : SlotId} {f : Frame} (h : s.Takes 0x11 i f) :
    exec .getChannel s = .next ((s.afterTake i).doGetChannel f) :=
  congrArg _ (State.takeRequest_of_takes h rfl)

end Sys2Proof.Machine

namespace Sys2Proof

open Machine

/-- Settles O13: the view part by part, with the free bytes in the hop steps and the flag bytes. -/
theorem getChannelReportsTheRecord : Obligations.GetChannelReportsTheRecord := by
  intro s i f b ht hp
  rw [exec_getChannel ht]
  unfold State.doGetChannel
  rw [hp]
  refine ⟨fun h => by rw [parseChannel_of_ge h, State.perform_error], fun c hc => ?_⟩
  rw [parseChannel_of_val hc, State.perform_of_passed rfl]
  dsimp only
  refine ⟨rfl, hopBytes (s.chan c).config.hopList s.freeCount,
    withFreeHighBits (s.chan c).liveFlags (Config.freeByte (s.freeCount + 4)),
    (s.chan c).groups s.freeCount, ?_, hopBytes_length _ _, fun _ _ hj hh => hopBytes_getElem? hj hh,
    ?_⟩
  · generalize s.chan c = ch
    simp only [Body.bytes, ReplyData.bytes, Channel.view, ChannelConfig.block, beInt16_eq,
      List.flatMap_def, List.append_assoc]
    rfl
  · obtain ⟨noise, delta, timer⟩ := withFreeHighBits_bits (s.chan c).noiseOn (s.chan c).lastDelta.isSome
      (s.chan c).maxOn.isSome (Config.freeByte (s.freeCount + 4))
    exact ⟨noise, delta, timer, Channel.groups_length _ _, fun j sl hj =>
      ⟨_, Channel.groups_getElem? hj, withFreeHighBits_bits _ _ _ _⟩⟩

end Sys2Proof
end

section
/-! The filter, the delta, and what a CLEAN sample does to a detecting channel (O35, O38). -/

namespace Sys2Proof.Machine

/-! ## Rounding -/

/-- A part of a distance lies between none of it and the whole (R28). -/
theorem ediv_between {p : Int} (hp : 1 ≤ p) (x : Int) :
    min 0 x ≤ x / p ∧ x / p ≤ max 0 x := by
  rcases le_total 0 x with hx | hx
  · have := Int.ediv_nonneg hx (show 0 ≤ p by omega)
    have := Int.ediv_le_self p hx
    omega
  · have := Int.ediv_nonpos_of_nonpos_of_neg hx (show 0 < p by omega)
    have : x ≤ x / p := Int.le_ediv_of_mul_le (by omega) (by nlinarith)
    omega

/-- The step of the filter, as an integer: it never passes either end, so it is no less than 0 (R28). -/
theorem Slot.nextFiltered_moves {sl : Slot} {f : Nat} (hf : sl.filtered = some f)
    (hr : sl.reseed = false) (k raw : Nat) :
    (sl.nextFiltered k raw : Int) = f + (16 * (raw : Int) - f) / 2 ^ k
      ∧ min f (16 * raw) ≤ sl.nextFiltered k raw ∧ sl.nextFiltered k raw ≤ max f (16 * raw) := by
  have between := ediv_between (one_le_pow₀ (by decide) : (1 : Int) ≤ 2 ^ k) (16 * (raw : Int) - f)
  have moved : sl.nextFiltered k raw = ((f : Int) + (16 * (raw : Int) - f) / 2 ^ k).toNat := by
    simp [Slot.nextFiltered, hf, hr]
  rw [moved]
  omega

theorem Slot.nextFiltered_reseeded {sl : Slot} (hr : sl.reseed = true) (k raw : Nat) :
    sl.nextFiltered k raw = 16 * raw := by
  unfold Slot.nextFiltered
  cases sl.filtered <;> simp [hr]

theorem Slot.nextFiltered_seeded {sl : Slot} (hf : sl.filtered = none) (k raw : Nat) :
    sl.nextFiltered k raw = 16 * raw := by
  simp [Slot.nextFiltered, hf]

/-- The delta where the filtered value has fallen below the baseline, or not left it (R29). -/
theorem deltaOf_of_le {b f : Nat} (h : f ≤ b) :
    deltaOf b f = min 2047 (((b : Int) - f) / 16) := by
  unfold deltaOf
  rw [Int.tdiv_eq_ediv_of_nonneg (by omega)]
  omega

/-- The delta where the filtered value has risen above the baseline, or not left it (R29). -/
theorem deltaOf_of_ge {b f : Nat} (h : b ≤ f) :
    deltaOf b f = max (-2048) (-(((f : Int) - b) / 16)) := by
  unfold deltaOf
  rw [← neg_sub, Int.neg_tdiv, Int.tdiv_eq_ediv_of_nonneg (by omega)]
  omega

/-! ## The detection and the tracking -/

/-- The judgement moves the state, the debounce count and the max-on timer alone (R51, R54). -/
theorem Channel.judge_moves (ch : Channel) (d : Int) :
    ∃ state debounce maxOn,
      ch.judge d = { ch with state := state, debounce := debounce, maxOn := maxOn } := by
  unfold Channel.judge
  dsimp only
  split <;> repeat' split
  all_goals exact ⟨_, _, _, rfl⟩

/-- A change of one slot that keeps what a reading takes of it keeps the readings of all. -/
theorem map_modify_of_kept {α β : Type} (g : α → β) {h : α → α} (hk : ∀ x, g (h x) = g x)
    (l : List α) (i : Nat) : (l.modify i h).map g = l.map g := by
  apply List.ext_getElem?
  intro j
  rw [List.getElem?_map, List.getElem?_map, List.getElem?_modify]
  cases l[j]? with
  | none => rfl
  | some x => by_cases hij : i = j <;> simp [hij, hk]

/-- A change of the slot at an index, whose value there is known. -/
theorem modify_congr_of_getElem? {α : Type} {l : List α} {i : Nat} {x : α} (hx : l[i]? = some x)
    {g h : α → α} (he : g x = h x) : l.modify i g = l.modify i h := by
  rw [List.modify_eq_set_getElem?, List.modify_eq_set_getElem?, hx, Option.map_eq_map, Option.map_some,
    Option.map_eq_map, Option.map_some, he]

/-- The drift moves the drift counter and the baseline of the current slot alone (R57). -/
theorem Channel.drift_moves (ch : Channel) :
    ∃ slots n, ch.drift = { ch with slots := slots, driftCount := n }
      ∧ slots.map Slot.filtered = ch.slots.map Slot.filtered
      ∧ slots.map Slot.reseed = ch.slots.map Slot.reseed
      ∧ ∀ k, k ≠ ch.current → slots[k]? = ch.slots[k]? := by
  unfold Channel.drift
  split
  · exact ⟨_, _, rfl, rfl, rfl, fun _ _ => rfl⟩
  · split
    · refine ⟨_, _, rfl, map_modify_of_kept _ (fun sl => ?_) _ _,
        map_modify_of_kept _ (fun sl => ?_) _ _, fun k hk => ?_⟩
      · split <;> rfl
      · split <;> rfl
      · simp [Channel.driftStep, Channel.modifySlot, Ne.symm hk]
    · exact ⟨_, _, rfl, rfl, rfl, fun _ _ => rfl⟩

/-- A re-baseline moves baselines and ends the two runs (R56). -/
theorem Channel.rebaseline_moves (ch : Channel) :
    ∃ slots, ch.rebaseline = { ch with slots := slots, driftCount := 0, negRun := 0 }
      ∧ slots.map Slot.filtered = ch.slots.map Slot.filtered
      ∧ slots.map Slot.reseed = ch.slots.map Slot.reseed := by
  unfold Channel.rebaseline
  split
  · split
    · exact ⟨_, rfl, by rw [List.map_map]; rfl, by rw [List.map_map]; rfl⟩
    · exact ⟨_, rfl, rfl, rfl⟩
  · exact ⟨_, rfl, rfl, rfl⟩

/-- The negative run after a clean sample that stays in IDLE with a delta (R58). -/
def Channel.nextNegRun (ch : Channel) (d : Int) : Nat :=
  if d ≤ -(ch.config.negThreshold : Int) then ch.negRun + 1 else 0

/-- The record after the drift and the negative run, before any NEGATIVE re-baseline (R57, R58). -/
def Channel.drifted (ch : Channel) (d : Int) : Channel :=
  { ch.drift with negRun := ch.nextNegRun d }

/-- The tracking, case by case (R55, R57, R58). -/
theorem Channel.track_eq (ch : Channel) (was : ChannelState) (c : ChannelNo) (d : Int) :
    ch.track was c d
      = if was ≠ .idle then (ch, [])
        else if ch.state ≠ .idle then ({ ch with negRun := 0 }, [])
        else if ch.config.negRun ≤ ch.nextNegRun d then
          ((ch.drifted d).rebaseline, [.recal c .negative])
        else (ch.drifted d, []) := by
  have negative : ch.drift.negative c d
      = if ch.config.negRun ≤ ch.nextNegRun d then
          ((ch.drifted d).rebaseline, [.recal c .negative])
        else (ch.drifted d, []) := by
    obtain ⟨slots, n, hd, -⟩ := ch.drift_moves
    rw [Channel.drifted, hd]
    rfl
  unfold Channel.track
  rw [negative, ite_not, ite_not]

theorem Channel.track_channel (ch : Channel) (was : ChannelState) (c : ChannelNo) (d : Int) :
    (ch.track was c d).1
      = if was ≠ .idle then ch
        else if ch.state ≠ .idle then { ch with negRun := 0 }
        else if ch.config.negRun ≤ ch.nextNegRun d then (ch.drifted d).rebaseline
        else ch.drifted d := by
  simp only [Channel.track_eq, apply_ite Prod.fst]

/-- The tracking posts an event exactly where it takes the NEGATIVE re-baseline (R58). -/
theorem Channel.track_events (ch : Channel) (was : ChannelState) (c : ChannelNo) (d : Int) :
    (ch.track was c d).2
      = if was = .idle ∧ ch.state = .idle ∧ ch.config.negRun ≤ ch.nextNegRun d then
          [.recal c .negative]
        else [] := by
  simp only [Channel.track_eq, apply_ite Prod.snd, ite_not, ite_and]

/-- The tracking keeps the filtered values, the reseed flags and the last delta, and without an event
every baseline but the current slot's. -/
theorem Channel.track_keeps (ch : Channel) (was : ChannelState) (c : ChannelNo) (d : Int) :
    (ch.track was c d).1.slots.map Slot.filtered = ch.slots.map Slot.filtered
      ∧ (ch.track was c d).1.slots.map Slot.reseed = ch.slots.map Slot.reseed
      ∧ (ch.track was c d).1.lastDelta = ch.lastDelta
      ∧ ((ch.track was c d).2 = [] → ∀ k, k ≠ ch.current →
        (ch.track was c d).1.slots[k]? = ch.slots[k]?) := by
  obtain ⟨slots, n, hd, filtered, reseed, others⟩ := ch.drift_moves
  have drifted : ch.drifted d
      = { ch with slots := slots, driftCount := n, negRun := ch.nextNegRun d } := by
    rw [Channel.drifted, hd]
  obtain ⟨shifted, hr, filtered', reseed'⟩ := (ch.drifted d).rebaseline_moves
  rw [Channel.track_eq]
  split
  · exact ⟨rfl, rfl, rfl, fun _ _ _ => rfl⟩
  · split
    · exact ⟨rfl, rfl, rfl, fun _ _ _ => rfl⟩
    · split
      · rw [hr]
        rw [drifted] at filtered' reseed' ⊢
        exact ⟨filtered'.trans filtered, reseed'.trans reseed, rfl, fun h => (nomatch h)⟩
      · rw [drifted]
        exact ⟨filtered, reseed, rfl, fun _ => others⟩

/-! ## The clean sample -/

/-- The record of a detecting channel once a CLEAN sample has ended its runs and the noise condition and
has moved its slot's filtered value (R26, R28, R49). -/
def Channel.filteredOn (ch : Channel) (x : Sample) (f : Nat) : Channel :=
  { ch with
    lastRaw := x.raw, lastNoise := x.noise, faultRun := 0, noisyRun := 0, noiseOn := false
    slots := ch.slots.modify x.slot fun sl => { sl with filtered := some f, reseed := false } }

/-- The filtered record judged on the delta found in it, before the tracking (R51). -/
def Channel.judgedOn (ch : Channel) (x : Sample) (f : Nat) (d : Int) : Channel :=
  ({ ch.filteredOn x f with lastDelta := some d } : Channel).judge d

/-- The fields that the tracking reads are those of before the sample, but for the last delta. -/
theorem Channel.judgedOn_fields (ch : Channel) (x : Sample) (f : Nat) (d : Int) :
    (ch.judgedOn x f d).config = ch.config ∧ (ch.judgedOn x f d).negRun = ch.negRun
      ∧ (ch.judgedOn x f d).current = ch.current ∧ (ch.judgedOn x f d).lastDelta = some d
      ∧ (ch.judgedOn x f d).slots.map Slot.baseline = ch.slots.map Slot.baseline := by
  unfold Channel.judgedOn
  obtain ⟨_, _, _, hj⟩ := Channel.judge_moves { ch.filteredOn x f with lastDelta := some d } d
  rw [hj]
  refine ⟨rfl, rfl, rfl, rfl, ?_⟩
  unfold Channel.filteredOn
  exact map_modify_of_kept Slot.baseline
    (h := fun sl => { sl with filtered := some f, reseed := false }) (fun _ => rfl) _ _

section
variable {ch : Channel} {x : Sample} {sl : Slot}

theorem Channel.filterUpdate_noiseOff (c : ChannelNo) (hs : ch.slots[x.slot]? = some sl) :
    (({ ch with lastRaw := x.raw, lastNoise := x.noise } : Channel).noiseOff c
        x.slot).1.filterUpdate x.slot x.raw
      = ch.filteredOn x (sl.nextFiltered ch.config.filterDepth x.raw) := by
  have slots : ch.slots.modify x.slot (fun sl =>
        { sl with filtered := some (sl.nextFiltered ch.config.filterDepth x.raw), reseed := false })
      = ch.slots.modify x.slot fun old =>
        { old with
          filtered := some (sl.nextFiltered ch.config.filterDepth x.raw), reseed := false } :=
    modify_congr_of_getElem? hs rfl
  simp only [Channel.filterUpdate, Channel.modifySlot, Channel.noiseOff, Channel.filteredOn, slots]

theorem Channel.deltaAt_filteredOn {b : Nat} (f : Nat) (hs : ch.slots[x.slot]? = some sl)
    (hb : sl.baseline = some b) : (ch.filteredOn x f).deltaAt x.slot = some (deltaOf b f) := by
  simp [Channel.deltaAt, Channel.filteredOn, hs, hb]

/-- A CLEAN sample on a detecting channel whose slot holds a baseline (R39, R49, R51, R55). -/
theorem Channel.scanSample_clean {b : Nat} (c : ChannelNo) (hd : ch.state.isDetecting = true)
    (hx : x.cls = .clean) (hs : ch.slots[x.slot]? = some sl) (hb : sl.baseline = some b) :
    let f := sl.nextFiltered ch.config.filterDepth x.raw
    let judged := ch.judgedOn x f (deltaOf b f)
    let tracked := judged.track ch.state c (deltaOf b f)
    ch.scanSample c x
      = { channel := tracked.1
          events := (if ch.noiseOn then [.noise c false x.slot] else []) ++ tracked.2
          wake := entersTouch ch.state judged.state } := by
  unfold Channel.scanSample
  rw [if_pos hd, hx]
  unfold Channel.cleanSample
  dsimp only
  rw [Channel.filterUpdate_noiseOff c hs, Channel.deltaAt_filteredOn _ hs hb]
  rfl

end

theorem entersTouch_iff (was now : ChannelState) :
    entersTouch was now = true
      ↔ (now = .pressing ∧ was ≠ .pressing) ∨ (now = .touched ∧ was ≠ .touched) := by
  cases was <;> cases now <;> decide

end Sys2Proof.Machine

namespace Sys2Proof

open Machine

/-- Settles O35: the filter by the bounds of a quotient, the delta by the sign of the difference. -/
theorem filterAndDeltaRounding : Obligations.FilterAndDeltaRounding := by
  refine ⟨fun sl k raw f hf => ⟨fun hr => ?_, fun hr => Slot.nextFiltered_reseeded hr k raw⟩,
    fun sl k raw hf => Slot.nextFiltered_seeded hf k raw, fun b f => ?_⟩
  · obtain ⟨moved, above, below⟩ := Slot.nextFiltered_moves hf hr k raw
    refine ⟨moved, above, below, ?_⟩
    rintro rfl
    rw [pow_zero, Int.ediv_one] at moved
    omega
  · obtain ⟨low, high⟩ := deltaOf_bounds b f
    refine ⟨low, high, ?_⟩
    rcases Nat.le_total f b with h | h
    · rw [deltaOf_of_le h]
      omega
    · rw [deltaOf_of_ge h]
      omega

/-- Settles O38: the sample is filtered and judged, and each case of the tracking gives the rest. -/
theorem cleanSampleFiltersThenJudges : Obligations.CleanSampleFiltersThenJudges := by
  intro ch c x sl b hd hx hs hb f d judged run drifted negative
  have sample : ch.scanSample c x
      = { channel := (judged.track ch.state c d).1
          events := (if ch.noiseOn then [.noise c false x.slot] else [])
            ++ (judged.track ch.state c d).2
          wake := entersTouch ch.state judged.state } := Channel.scanSample_clean c hd hx hs hb
  obtain ⟨(config : judged.config = ch.config), (negRun : judged.negRun = ch.negRun), current, lastDelta,
    baselines⟩ := ch.judgedOn_fields x f d
  obtain ⟨filtered, reseed, delta, others⟩ := judged.track_keeps ch.state c d
  have limit : judged.config.negRun = ch.config.negRun := congrArg _ config
  have hrun : judged.nextNegRun d = run := by
    rw [Channel.nextNegRun, config, negRun]
  have hdrifted : judged.drifted d = drifted := by rw [Channel.drifted, hrun]
  have channel := judged.track_channel ch.state c d
  have events := judged.track_events ch.state c d
  rw [hrun, limit] at channel events
  rw [hdrifted] at channel
  rw [sample]
  refine ⟨channel, congrArg _ events, entersTouch_iff _ _, rfl, filtered, reseed,
    delta.trans lastDelta, fun hi => ?_, fun hn k hk => ?_⟩
  · dsimp only
    rw [channel, if_pos hi]
    exact baselines
  · have kept := others (events.trans (if_neg hn)) k (hk.trans_eq (Eq.symm current))
    have baseline := congrArg (·[k]?) baselines
    simp only [List.getElem?_map] at baseline
    dsimp only
    rw [kept]
    exact baseline

end Sys2Proof
end

section
/-! The reset state: what it holds (O52), and the invariants it meets (O60). -/

namespace Sys2Proof.Machine

/-! ## Reading the reset state -/

@[simp] theorem State.chan_reset (c : ChannelNo) : State.reset.chan c = {} := by
  simp [State.chan, State.reset]

@[simp] theorem State.job_reset (c : ChannelNo) : State.reset.job c = none := by
  simp [State.job, State.reset]

@[simp] theorem State.key_reset (k : KeyNo) : State.reset.key k = none := by
  simp [State.key, State.reset]

@[simp] theorem State.engine_reset (e : EngineId) : State.reset.engine e = .idle := by
  cases e <;> rfl

/-! ## The invariants -/

/-- The record of R37 is as the rules keep a record with no job. -/
theorem channelKept_default : channelKept {} none := by
  have unfilled : ∀ sl ∈ ({} : Channel).slots, sl.Unfilled := by
    rintro sl (_ | _)
    · exact ⟨rfl, rfl⟩
    · contradiction
  exact ⟨rfl, ⟨rfl, by decide, by decide, by decide⟩, unfilled, rfl, ⟨by decide, fun _ _ => rfl⟩,
    fun h => (nomatch h), forall_none, by unfold Channel.OffKept; decide⟩

/-- The values of the record of R37 are in range. -/
theorem Channel.valuesKept_default : ({} : Channel).ValuesKept := by
  have slots : ∀ sl ∈ ({} : Channel).slots, sl.InRange := by
    rintro sl (_ | _)
    · exact ⟨forall_none, forall_none⟩
    · contradiction
  exact ⟨slots, by decide, by decide, by decide, by decide, by decide, forall_none, Nat.zero_le _,
    Nat.zero_le _, forall_none⟩

theorem State.reset_channelsKept : State.reset.ChannelsKept := fun c => by
  rw [State.chan_reset, State.job_reset]
  exact channelKept_default

theorem State.reset_valuesKept : State.reset.ValuesKept := by
  refine ⟨fun e => ?_, fun c => ⟨?_, ?_⟩⟩
  · rw [State.engine_reset]
    trivial
  · rw [State.chan_reset]
    exact Channel.valuesKept_default
  · rw [State.job_reset]
    exact forall_none

/-- With no job and an empty table, nothing is left to serve. -/
theorem State.reset_workKept : State.reset.WorkKept := by
  refine ⟨fun c => ?_, ⟨by decide, .nil⟩, fun e he => (nomatch he), fun c j tag hj => ?_,
    fun e he => (nomatch he), .nil⟩
  · rw [State.chan_reset, State.job_reset]
    rfl
  · rw [State.job_reset] at hj
    cases hj

theorem State.reset_enginesOwn : State.reset.EnginesOwn := by
  refine ⟨fun e r he => ?_, fun cy hc => (nomatch hc)⟩
  rw [State.engine_reset] at he
  cases he

theorem State.reset_groupsExclusive : State.reset.GroupsExclusive := by
  intro k k' r r' g hk
  rw [State.key_reset] at hk
  cases hk

theorem State.reset_keyChannelsDistinct : State.reset.KeyChannelsDistinct := by
  refine ⟨fun k r hk => ?_, fun k k' r r' c hk => ?_⟩ <;>
  · rw [State.key_reset] at hk
    cases hk

/-- READY alone stands in the queue, with the first sequence number. -/
theorem Queue.reset_kept :
    State.reset.queue.EventsBounded ∧ State.reset.queue.SeqConsecutive
      ∧ State.reset.queue.OnlyHeadUnderway ∧ State.reset.queue.OneUnsentSlide :=
  ⟨by unfold Queue.EventsBounded; decide, ⟨rfl, trivial⟩, fun e he => (nomatch he),
    fun _ => Nat.zero_le 1⟩

end Sys2Proof.Machine

namespace Sys2Proof

open Machine

/-- Settles O52, field by field; the tables that are read by number, by what a read of them gives. -/
theorem resetValues : Obligations.ResetValues :=
  ⟨rfl, State.chan_reset, State.job_reset, State.key_reset, rfl, rfl, rfl, rfl, rfl, rfl, rfl, rfl, rfl,
    rfl, rfl, rfl, rfl, rfl⟩

/-- Settles O60, one invariant after the other. -/
theorem resetMeetsTheInvariants : Obligations.ResetMeetsTheInvariants := by
  obtain ⟨events, seq, head, slides⟩ := Queue.reset_kept
  exact ⟨by unfold State.RoomKept; decide, events, seq, head, slides, State.reset_workKept,
    State.reset_channelsKept, State.reset_enginesOwn,
    ⟨fun _ => ⟨rfl, rfl⟩, fun _ => ⟨rfl, rfl⟩⟩, by unfold Scheduler.SettingsKept; decide,
    State.reset_groupsExclusive, State.reset_keyChannelsDistinct, rfl, State.reset_valuesKept⟩

end Sys2Proof
end

section
/-! Detection and baseline tracking at one record: the rows of the state table (O36), FAULT and NOISY
samples (O37), what a re-baseline and a drift step do to a baseline (O39), and the max-on expiry (O40). -/

namespace Sys2Proof.Machine

/-! ## The rows of the state table (R51, R52, R54) -/

/-- A max-on time of quarter seconds starts the timer with its milliseconds, and one of 0 starts none. -/
theorem startTimer_maxOn (n : Nat) :
    startTimer (n * 250) = if n = 0 then none else some (n * 250) := by
  by_cases hn : n = 0 <;> simp [startTimer, hn]

theorem Channel.touch_eq (ch : Channel) :
    ch.touch
      = { ch with
          state := .touched, debounce := 0
          maxOn := if ch.config.maxOnTime = 0 then none else some (ch.config.maxOnTime * 250) } := by
  rw [← startTimer_maxOn]
  rfl

theorem Channel.TimerKept.stopped {ch : Channel} (h : ch.TimerKept) (hs : ch.state.isHeld = false) :
    ch.maxOn = none := by
  cases hm : ch.maxOn with
  | none => rfl
  | some ms =>
    have := h (by rw [hm]; rfl)
    rw [hs] at this
    cases this

section
variable {ch : Channel} {d : Int}

theorem Channel.judge_idle (hs : ch.state = .idle) (hm : ch.maxOn = none) (h0 : ch.debounce = 0) :
    ch.judge d
      = if (ch.config.touchThreshold : Int) ≤ d then
          if 1 < ch.config.pressDebounce then { ch with state := .pressing, debounce := 1 }
          else ch.touch
        else ch := by
  cases ch
  subst hs hm h0
  rfl

theorem Channel.judge_pressing (hs : ch.state = .pressing) (hm : ch.maxOn = none) :
    ch.judge d
      = if (ch.config.touchThreshold : Int) ≤ d then
          if ch.debounce + 1 < ch.config.pressDebounce then { ch with debounce := ch.debounce + 1 }
          else ch.touch
        else { ch with state := .idle, debounce := 0 } := by
  cases ch
  subst hs hm
  rfl

theorem Channel.judge_touched (hs : ch.state = .touched) (h0 : ch.debounce = 0) :
    ch.judge d
      = if (ch.config.touchThreshold : Int) - ch.config.hysteresis ≤ d then ch
        else if 1 < ch.config.releaseDebounce then { ch with state := .releasing, debounce := 1 }
        else ch.toIdle := by
  cases ch
  subst hs h0
  rfl

theorem Channel.judge_releasing (hs : ch.state = .releasing) :
    ch.judge d
      = if (ch.config.touchThreshold : Int) - ch.config.hysteresis ≤ d then
          { ch with state := .touched, debounce := 0 }
        else if ch.debounce + 1 < ch.config.releaseDebounce then
          { ch with debounce := ch.debounce + 1 }
        else ch.toIdle := by
  cases ch
  subst hs
  rfl

end

/-! ## FAULT samples (R40 to R44) -/

section
variable {ch : Channel} {x : Sample}

theorem Channel.scanSample_fault (c : ChannelNo) {kind : FaultKind} (hd : ch.state.isDetecting = true)
    (hx : x.cls = .fault kind) :
    ch.scanSample c x
      = ({ ch with lastRaw := x.raw, lastNoise := x.noise } : Channel).faultSample c kind := by
  unfold Channel.scanSample
  rw [if_pos hd, hx]

theorem Channel.scanSample_noisy (c : ChannelNo) (hd : ch.state.isDetecting = true)
    (hx : x.cls = .noisy) :
    ch.scanSample c x
      = ({ ch with lastRaw := x.raw, lastNoise := x.noise } : Channel).noisySample c x.slot := by
  unfold Channel.scanSample
  rw [if_pos hd, hx]

theorem Channel.scanSample_inFault (c : ChannelNo) (hs : ch.state = .fault) :
    ch.scanSample c x
      = ({ ch with lastRaw := x.raw, lastNoise := x.noise } : Channel).sampleInFault c x.cls := by
  unfold Channel.scanSample
  rw [if_neg (by rw [hs]; decide), if_pos hs]

end

/-- In FAULT the two non-fault classes count alike (R43, R44). -/
theorem Channel.sampleInFault_good (ch : Channel) (c : ChannelNo) {cls : SampleClass}
    (h : ∀ kind, cls ≠ .fault kind) :
    ch.sampleInFault c cls
      = if ch.goodRun + 1 < 8 then { channel := { ch with goodRun := ch.goodRun + 1 } }
        else
          { channel := { ch with goodRun := 0, state := .uncal }
            events := [.fault c .clear]
            faultExit := true } := by
  cases cls with
  | fault kind => exact absurd rfl (h kind)
  | noisy => rfl
  | clean => rfl

/-! ## NOISY samples (R46 to R48) -/

/-- The hop advance from the current slot: the next of the hop list, in turn, becomes the current slot,
and its reseed flag is set; a hop list of one leaves all as it was (R47). -/
theorem Channel.hop_current {ch : Channel} (h : ch.SlotsMatch) :
    ∃ slots,
      ch.hop ch.current
          = { ch with
              current :=
                if ch.config.hopList.length = 1 then 0
                else (ch.current + 1) % ch.config.hopList.length
              slots := slots }
        ∧ ∀ k : Nat, slots[k]?
          = if ch.config.hopList.length ≠ 1 ∧ k = (ch.current + 1) % ch.config.hopList.length then
              ch.slots[k]?.map fun sl => { sl with reseed := true }
            else ch.slots[k]? := by
  obtain ⟨-, one, -, current⟩ := h
  unfold Channel.hop
  by_cases hn : ch.config.hopList.length = 1
  · refine ⟨ch.slots, ?_, fun k => (if_neg fun hk => hk.1 hn).symm⟩
    have first : ch.current = 0 := by omega
    rw [if_neg (by omega), if_pos hn, ← first]
  · rw [if_pos (by omega), if_neg hn]
    refine ⟨_, rfl, fun k => ?_⟩
    rw [Channel.modifySlot, List.getElem?_modify]
    by_cases hk : k = (ch.current + 1) % ch.config.hopList.length
    · rw [if_pos ⟨hn, hk⟩]
      simp [← hk]
    · rw [if_neg fun h => hk h.2]
      simp [Ne.symm hk]

/-- A NOISY sample hops, and turns the noise condition on at the noise run with an event for the change
alone (R46 to R48). -/
theorem Channel.noisySample_eq (ch : Channel) (c : ChannelNo) (i : Nat) :
    let run := min 15 (ch.noisyRun + 1)
    let on := decide (ch.config.noiseRun ≤ run)
    ch.noisySample c i
      = { channel :=
            { ({ ch with faultRun := 0, noisyRun := run } : Channel).hop i with
              noiseOn := ch.noiseOn || on }
          events := if ch.noiseOn = false ∧ on = true then [.noise c true i] else [] } := by
  intro run on
  have kept : (({ ch with faultRun := 0, noisyRun := run } : Channel).hop i).noiseOn = ch.noiseOn := by
    unfold Channel.hop
    split <;> rfl
  have turns : (!ch.noiseOn && on) = true ↔ ch.noiseOn = false ∧ on = true := by simp
  change (if (!ch.noiseOn && on) = true then _ else _) = _
  dsimp only
  generalize ({ ch with faultRun := 0, noisyRun := run } : Channel).hop i = hopped at kept ⊢
  by_cases h : ch.noiseOn = false ∧ on = true
  · rw [if_pos (turns.2 h), if_pos h, h.2, Bool.or_true]
  · have stays : (ch.noiseOn || on) = hopped.noiseOn := by
      rw [kept]
      cases hn : ch.noiseOn with
      | true => rfl
      | false => simpa [hn] using h
    rw [if_neg (mt turns.1 h), if_neg h, stays]

/-! ## Baselines (R56, R57) -/

/-- A shifted baseline is the sum with the difference, held within 0..262128 (R56). -/
theorem shiftBaseline_eq (b : Nat) (diff : Int) :
    shiftBaseline b diff = (max 0 (min 262128 ((b : Int) + diff))).toNat := by
  unfold shiftBaseline sixteenthsTop
  omega

section
variable {ch : Channel} {sl : Slot} {b f : Nat}

theorem Channel.rebaseline_filled (hs : ch.slots[ch.current]? = some sl) (hb : sl.baseline = some b)
    (hf : sl.filtered = some f) :
    ch.rebaseline
      = { ch with
          slots := ch.slots.map fun x =>
            { x with baseline := x.baseline.map fun bk => shiftBaseline bk ((f : Int) - b) }
          driftCount := 0, negRun := 0 } := by
  unfold Channel.rebaseline
  simp only [hs, hb, hf]

theorem Channel.driftStep_filled (hs : ch.slots[ch.current]? = some sl) (hb : sl.baseline = some b)
    (hf : sl.filtered = some f) :
    ch.driftStep
      = { ch with
          slots := ch.slots.set ch.current { sl with baseline := some (driftBaseline b f) } } := by
  unfold Channel.driftStep Channel.modifySlot
  rw [List.modify_eq_set_getElem?, hs]
  simp only [Option.map_eq_map, Option.map_some, hb, hf]
  rfl

/-! ## The max-on expiry (R59) -/

theorem Channel.maxOnExpire_filled (hs : ch.slots[ch.current]? = some sl) (hb : sl.baseline = some b)
    (hf : sl.filtered = some f) :
    ch.maxOnExpire
      = { ch with
          slots := ch.slots.map fun x =>
            { x with
              baseline := x.baseline.map fun (bk : Nat) =>
                (max 0 (min 262128 ((bk : Int) + ((f : Int) - b)))).toNat }
          driftCount := 0, negRun := 0, state := .idle, debounce := 0, maxOn := none
          note := .timeout } := by
  unfold Channel.maxOnExpire
  simp only [Channel.rebaseline_filled hs hb hf, shiftBaseline_eq]

end

/-- The number of a channel names its own timer. -/
theorem exec_maxOnExpiry (c : ChannelNo) (s : State) :
    exec (.maxOnExpiry c) s = .next (s.maxOnExpiry c) := by
  show Host.Outcome.next (if h : c.val < 24 then s.maxOnExpiry ⟨c, h⟩ else s) = _
  rw [dif_pos c.isLt]

theorem State.maxOnExpiry_running {s : State} {c : ChannelNo} {ms : Nat}
    (hm : (s.chan c).maxOn = some ms) (hs : (s.chan c).state.isHeld = true) :
    s.maxOnExpiry c = (s.setChan c (s.chan c).maxOnExpire).post (.recal c .stuck) := by
  unfold State.maxOnExpiry
  dsimp only
  rw [if_pos (by rw [hm, hs]; rfl)]

end Sys2Proof.Machine

namespace Sys2Proof

open Machine

/-- Settles O36, by the equation of the judgement in each detecting state. -/
theorem detectionStateMovesByTheTable : Obligations.DetectionStateMovesByTheTable := by
  intro ch d timerKept debounceKept timer press hold
  have untimed (hs : ch.state.isHeld = false) : ch.maxOn = none := timerKept.stopped hs
  have idle (hs : ch.state = .idle) := Channel.judge_idle (d := d) hs
    (untimed (by rw [hs]; rfl)) (debounceKept.2 (by simp [hs]) (by simp [hs]))
  have pressing (hs : ch.state = .pressing) := Channel.judge_pressing (d := d) hs
    (untimed (by rw [hs]; rfl))
  have touched (hs : ch.state = .touched) := Channel.judge_touched (d := d) hs
    (debounceKept.2 (by simp [hs]) (by simp [hs]))
  have releasing (hs : ch.state = .releasing) := Channel.judge_releasing (d := d) hs
  have pressed : press = true → (ch.config.touchThreshold : Int) ≤ d := of_decide_eq_true
  have unpressed : press = false → ¬ (ch.config.touchThreshold : Int) ≤ d := of_decide_eq_false
  have held : hold = true → (ch.config.touchThreshold : Int) - ch.config.hysteresis ≤ d :=
    of_decide_eq_true
  have unheld : hold = false → ¬ (ch.config.touchThreshold : Int) - ch.config.hysteresis ≤ d :=
    of_decide_eq_false
  refine ⟨fun hs hp hn => ?_, fun hs hp hn => ?_, fun hs hp => ?_, fun hs hp hn => ?_,
    fun hs hp hn => ?_, fun hs hp => ?_, fun hs hh => ?_, fun hs hh hn => ?_, fun hs hh hn => ?_,
    fun hs hh hn => ?_, fun hs hh hn => ?_, fun hs hh => ?_⟩
  · rw [idle hs, if_pos (pressed hp), if_pos hn]
  · rw [idle hs, if_pos (pressed hp), if_neg hn.not_gt, Channel.touch_eq]
  · rw [idle hs, if_neg (unpressed hp)]
  · rw [pressing hs, if_pos (pressed hp), if_pos hn]
  · rw [pressing hs, if_pos (pressed hp), if_neg hn.not_gt, Channel.touch_eq]
  · rw [pressing hs, if_neg (unpressed hp)]
  · rw [touched hs, if_pos (held hh)]
  · rw [touched hs, if_neg (unheld hh), if_pos hn]
  · rw [touched hs, if_neg (unheld hh), if_neg hn.not_gt, Channel.toIdle]
  · rw [releasing hs, if_neg (unheld hh), if_pos hn]
  · rw [releasing hs, if_neg (unheld hh), if_neg hn.not_gt, Channel.toIdle]
  · rw [releasing hs, if_pos (held hh)]

/-- Settles O37: the two runs of FAULT samples by their bounds, the NOISY sample by its hop. -/
theorem faultAndNoisySamplesAreCounted : Obligations.FaultAndNoisySamplesAreCounted := by
  refine ⟨fun ch c x => ⟨fun kind hd hx => ?_, fun hs hx => ?_, fun kind hs hx => ?_⟩,
    fun ch c x hd hx hm hc => ?_⟩
  · rw [Channel.scanSample_fault c hd hx, Channel.faultSample]
    refine ⟨fun hn => if_pos hn, fun hn => (if_neg hn.not_gt).trans ?_⟩
    cases kind <;> rfl
  · rw [Channel.scanSample_inFault c hs, Channel.sampleInFault_good _ c hx]
    exact ⟨fun hn => if_pos hn, fun hn => if_neg hn.not_gt⟩
  · rw [Channel.scanSample_inFault c hs, hx]
    rfl
  · intro n on
    obtain ⟨slots, hop, reseeded⟩ := Channel.hop_current
      (ch := { ch with
        lastRaw := x.raw, lastNoise := x.noise, faultRun := 0, noisyRun := min 15 (ch.noisyRun + 1) }) hm
    rw [Channel.scanSample_noisy c hd hx, Channel.noisySample_eq, hc, hop]
    exact ⟨rfl, rfl, rfl, rfl, fun k _ => reseeded k⟩

/-- Settles O39, by the shift of one baseline and by the drift of one. -/
theorem rebaselineAndDriftMoveBaselines : Obligations.RebaselineAndDriftMoveBaselines := by
  intro ch sl b f hs hb hf hb' hf'
  refine ⟨⟨_, Channel.rebaseline_filled hs hb hf, List.length_map _, fun k old bk hk hbk => ?_⟩,
    fun hi hn => ?_, fun hi hn => ?_, fun hi => ?_⟩
  · refine ⟨shiftBaseline bk ((f : Int) - b), by simp [hk, hbk], shiftBaseline_le _ _, ?_⟩
    have own : k = ch.current → bk = b := by
      rintro rfl
      rw [hs] at hk
      cases hk
      rw [hb] at hbk
      exact (Option.some.inj hbk).symm
    rw [shiftBaseline_eq]
    omega
  · refine ⟨driftBaseline b f, ?_, ?_⟩
    · rw [Channel.drift, if_neg hi.ne', if_pos hn, Channel.driftStep_filled hs hb hf]
    · unfold driftBaseline
      split_ifs <;> omega
  · rw [Channel.drift, if_neg hi.ne', if_neg hn.not_ge]
  · rw [Channel.drift, if_pos hi]

/-- Settles O40: the timer runs and the channel is held, so the record expires and the event is offered. -/
theorem maxOnExpiryEndsAStuckTouch : Obligations.MaxOnExpiryEndsAStuckTouch := by
  intro s c ms sl b f hm hs hsl hb hf
  have held : (s.chan c).state.isHeld = true := by
    rcases hs with hs | hs <;> rw [hs] <;> rfl
  rw [exec_maxOnExpiry, State.maxOnExpiry_running hm held, Channel.maxOnExpire_filled hsl hb hf]
  rfl

end Sys2Proof
end

section
/-! Jobs and pending entries serve one another after every step (O56). What the rules say of the two sets
together is a statement about the origins of the jobs and the pending table alone; each operation on either
set is followed there, and the moves of a step are made of these operations. -/

namespace Sys2Proof.Machine

/-! ## Origins and the table -/

/-- The subject channels of a CALIBRATE (R65). -/
def LongWork.subjects : LongWork → List ChannelNo
  | .calibrate subjects _ => subjects
  | .measure _ _ _ _ => []

/-- A CALIBRATE still lacks the result of a subject channel (R77). -/
def LongWork.Lacks (w : LongWork) (c : ChannelNo) : Prop :=
  match w with
  | .calibrate subjects results => c ∈ subjects ∧ c ∉ results.map CalResult.channel
  | .measure _ _ _ _ => False

/-- A MEASURE, or a CALIBRATE that still lacks a result: an entry that has not completed (R169). -/
def LongWork.Unfinished (w : LongWork) : Prop := w.measured = none → ∃ c, w.Lacks c

/-- The jobs, given by their origins, and the entries of the table serve one another (R63, R77, R168): a
channel has a job of a request exactly where an entry of its tag lacks the channel's result, and a channel
that is measured has no job. -/
structure Served (origin : ChannelNo → Option JobOrigin) (table : List PendingEntry) : Prop where
  room : table.length ≤ 4
  tags : (table.map PendingEntry.tag).Nodup
  subjects : ∀ e ∈ table, e.work.subjects.Nodup
  jobs : ∀ c tag, origin c = some (.request tag) ↔ ∃ e ∈ table, e.tag = tag ∧ e.work.Lacks c
  measures : ∀ e ∈ table, ∀ c, e.work.measured = some c → origin c = none
  distinct : (table.filterMap fun e => e.work.measured).Nodup

variable {origin : ChannelNo → Option JobOrigin} {table : List PendingEntry} {e e' : PendingEntry}
  {c : ChannelNo} {tag : Byte}

/-- Only a CALIBRATE lacks results. -/
theorem LongWork.lacks_iff {w : LongWork} :
    w.Lacks c ↔ ∃ subjects results, w = .calibrate subjects results
      ∧ c ∈ subjects ∧ c ∉ results.map CalResult.channel := by
  cases w with
  | calibrate subjects results =>
    refine ⟨fun h => ⟨subjects, results, rfl, h⟩, ?_⟩
    rintro ⟨_, _, ⟨⟩, h⟩
    exact h
  | measure => exact ⟨False.elim, by rintro ⟨_, _, ⟨⟩, -⟩⟩

/-- An entry that lacks a result is no MEASURE. -/
theorem LongWork.Lacks.measured {w : LongWork} (h : w.Lacks c) : w.measured = none := by
  obtain ⟨_, _, rfl, -⟩ := LongWork.lacks_iff.1 h
  rfl

/-- An entry that holds all its results lacks none (R77). -/
theorem LongWork.not_lacks_of_hasAllResults {w : LongWork} (h : w.hasAllResults = true)
    (c : ChannelNo) : ¬ w.Lacks c := by
  cases w with
  | calibrate subjects results => exact fun hl => hl.2 ((hasAllResults_calibrate _ _).1 h c hl.1)
  | measure => exact id

theorem LongWork.unfinished_of_not_hasAllResults {w : LongWork} (h : ¬ w.hasAllResults = true) :
    w.Unfinished := by
  cases w with
  | calibrate subjects results =>
    intro _
    by_contra hn
    refine h ((hasAllResults_calibrate _ _).2 fun d hd => ?_)
    by_contra hr
    exact hn ⟨d, hd, hr⟩
  | measure => exact fun hm => nomatch hm

/-- What the table holds once an entry has taken the place of another with its tag. -/
theorem mem_replace_iff (hn : (table.map PendingEntry.tag).Nodup) (he : e ∈ table)
    (ht : e'.tag = e.tag) (x : PendingEntry) :
    x ∈ table.replace e e' ↔ x = e' ∨ x ∈ table ∧ x.tag ≠ e.tag := by
  obtain ⟨before, after, rfl⟩ := List.append_of_mem he
  have first := not_mem_before hn
  have last : ∀ x ∈ after, x.tag ≠ e.tag := by
    simp only [List.map_append, List.map_cons, List.nodup_append, List.nodup_cons] at hn
    exact fun x hx h => hn.2.1.1 (h ▸ List.mem_map_of_mem hx)
  rw [table_replace e' hn]
  simp only [List.mem_append, List.mem_cons]
  constructor
  · rintro (hx | rfl | hx)
    · exact .inr ⟨.inl hx, first x hx⟩
    · exact .inl rfl
    · exact .inr ⟨.inr (.inr hx), last x hx⟩
  · rintro (rfl | ⟨hx | rfl | hx, ht⟩)
    · exact .inr (.inl rfl)
    · exact .inl hx
    · exact absurd rfl ht
    · exact .inr (.inr hx)

/-- A value that an entry and its replacement share is unchanged over the table. -/
theorem map_replace_of_eq {α : Type} (f : PendingEntry → α) (h : f e' = f e) :
    (table.replace e e').map f = table.map f := by
  induction table with
  | nil => rfl
  | cons x rest ih =>
    rw [List.replace_cons]
    split
    · rename_i hx
      rw [← eq_of_beq hx, List.map_cons, List.map_cons, h]
    · rw [List.map_cons, List.map_cons, ih]

/-- An entry with the measured channel of another takes its place. -/
theorem filterMap_measured_replace (h : e'.work.measured = e.work.measured) :
    (table.replace e e').filterMap (fun e => e.work.measured)
      = table.filterMap fun e => e.work.measured := by
  have mapped := congrArg (List.filterMap id)
    (map_replace_of_eq (table := table) (fun e : PendingEntry => e.work.measured) h)
  rwa [List.filterMap_map, List.filterMap_map] at mapped

/-! ## Operations on the two sets -/

/-- The entry that a lacked result belongs to is the one with its tag. -/
theorem Served.origin_iff (h : Served origin table) (he : e ∈ table) :
    origin c = some (.request e.tag) ↔ e.work.Lacks c := by
  refine (h.jobs c e.tag).trans ⟨?_, fun hl => ⟨e, he, rfl, hl⟩⟩
  rintro ⟨x, hx, ht, hl⟩
  rwa [entry_unique h.tags he hx ht] at hl

/-- An entry that lacks no result leaves the table (R169). -/
theorem Served.erase (h : Served origin table) (hl : ∀ c, ¬ e.work.Lacks c) :
    Served origin (table.erase e) where
  room := List.length_erase_le.trans h.room
  tags := h.tags.sublist (List.erase_sublist.map _)
  subjects x hx := h.subjects x (List.mem_of_mem_erase hx)
  jobs c tag := by
    rw [h.jobs]
    refine exists_congr fun x => ⟨?_, fun ⟨hx, hr⟩ => ⟨List.mem_of_mem_erase hx, hr⟩⟩
    rintro ⟨hx, ht, hc⟩
    exact ⟨(List.mem_erase_of_ne (by rintro rfl; exact hl c hc)).2 hx, ht, hc⟩
  measures x hx := h.measures x (List.mem_of_mem_erase hx)
  distinct := h.distinct.sublist (List.erase_sublist.filterMap _)

/-- An entry takes the place of one with its tag, and serves the jobs of that tag as they then are. -/
theorem Served.replace (h : Served origin table) (he : e ∈ table) (ht : e'.tag = e.tag)
    (hs : e'.work.subjects.Nodup) (hm : e'.work.measured = e.work.measured)
    {origin' : ChannelNo → Option JobOrigin}
    (own : ∀ d, origin' d = some (.request e.tag) ↔ e'.work.Lacks d)
    (other : ∀ d tag, tag ≠ e.tag →
      (origin' d = some (.request tag) ↔ origin d = some (.request tag)))
    (idle : ∀ d, origin d = none → origin' d = none) :
    Served origin' (table.replace e e') := by
  have mem := mem_replace_iff h.tags he ht
  refine ⟨by rw [List.length_replace]; exact h.room, by rw [map_replace_of_eq _ ht]; exact h.tags,
    fun x hx => ?_, fun d tag => ?_, fun x hx d hd => idle d ?_,
    by rw [filterMap_measured_replace hm]; exact h.distinct⟩
  · rcases (mem x).1 hx with rfl | ⟨hx, -⟩
    · exact hs
    · exact h.subjects x hx
  · by_cases hte : tag = e.tag
    · subst hte
      refine (own d).trans ⟨fun hl => ⟨e', (mem e').2 (.inl rfl), ht, hl⟩, ?_⟩
      rintro ⟨x, hx, hxt, hl⟩
      rcases (mem x).1 hx with rfl | ⟨-, hne⟩
      · exact hl
      · exact absurd hxt hne
    · refine ((other d tag hte).trans (h.jobs d tag)).trans (exists_congr fun x => ?_)
      rw [mem]
      constructor
      · rintro ⟨hx, rfl, hl⟩
        exact ⟨.inr ⟨hx, hte⟩, rfl, hl⟩
      · rintro ⟨rfl | ⟨hx, -⟩, hxt, hl⟩
        · exact absurd (hxt.symm.trans ht) hte
        · exact ⟨hx, hxt, hl⟩
  · rcases (mem x).1 hx with rfl | ⟨hx, -⟩
    · exact h.measures e he d (hm ▸ hd)
    · exact h.measures x hx d hd

/-- A job of a request ends, and its result joins its entry, which then lacks it no longer (R77). -/
theorem Served.result (h : Served origin table) {subjects : List ChannelNo} {results : List CalResult}
    (he : e ∈ table) (hw : e.work = .calibrate subjects results) (y : CalResult)
    (hc : origin y.channel = some (.request e.tag)) :
    Served (Function.update origin y.channel none)
      (table.replace e { e with work := .calibrate subjects (results ++ [y]) }) := by
  have subjectsKept := h.subjects e he
  rw [hw] at subjectsKept
  refine h.replace (e' := { e with work := .calibrate subjects (results ++ [y]) }) he rfl subjectsKept
    (by rw [hw]; rfl) (fun d => ?_) (fun d tag ht => ?_) fun d hd => ?_
  · have now := h.origin_iff he (c := d)
    rw [hw] at now
    by_cases hdc : d = y.channel
    · simp [hdc, LongWork.Lacks]
    · simpa [hdc, LongWork.Lacks] using now
  · by_cases hdc : d = y.channel
    · subst hdc
      rw [Function.update_self, hc]
      simp [ht.symm]
    · rw [Function.update_of_ne hdc]
  · by_cases hdc : d = y.channel
    · rw [hdc, Function.update_self]
    · rw [Function.update_of_ne hdc, hd]

/-- A sample joins a MEASURE entry (R15). -/
theorem Served.sampled (h : Served origin table) {slot count : Nat} {results : List MeasureResult}
    (he : e ∈ table) (hw : e.work = .measure c slot count results) (results' : List MeasureResult) :
    Served origin (table.replace e { e with work := .measure c slot count results' }) :=
  h.replace (e' := { e with work := .measure c slot count results' }) he rfl .nil (by rw [hw]; rfl)
    (fun _ => (h.origin_iff he).trans (by rw [hw]; exact Iff.rfl)) (fun _ _ _ => Iff.rfl) fun _ => id

/-- A job of no request starts for a channel that is not measured, or ends (R66, R78). -/
theorem Served.automatic (h : Served origin table) {o : Option JobOrigin}
    (was : ∀ tag, origin c ≠ some (.request tag)) (now : ∀ tag, o ≠ some (.request tag))
    (hm : o = none ∨ ∀ e ∈ table, e.work.measured ≠ some c) :
    Served (Function.update origin c o) table := by
  refine ⟨h.room, h.tags, h.subjects, fun d tag => ?_, fun e he d hd => ?_, h.distinct⟩
  · refine .trans ?_ (h.jobs d tag)
    by_cases hdc : d = c
    · rw [hdc, Function.update_self]
      exact iff_of_false (now tag) (was tag)
    · rw [Function.update_of_ne hdc]
  · by_cases hdc : d = c
    · subst hdc
      rw [Function.update_self]
      exact hm.resolve_right fun free => free e he hd
    · rw [Function.update_of_ne hdc]
      exact h.measures e he d hd

/-- The table with an entry opened at its tail has its room and its distinct tags (R166, R168). -/
theorem Served.opened_tags (h : Served origin table) (h4 : table.length < 4)
    (ht : ∀ x ∈ table, x.tag ≠ e.tag) :
    (table ++ [e]).length ≤ 4 ∧ ((table ++ [e]).map PendingEntry.tag).Nodup := by
  refine ⟨by simpa using h4, ?_⟩
  rw [List.map_append, List.nodup_append]
  refine ⟨h.tags, by simp, fun a ha b hb => ?_⟩
  obtain ⟨x, hx, rfl⟩ := List.mem_map.1 ha
  simp only [List.map_cons, List.map_nil, List.mem_singleton] at hb
  exact hb ▸ ht x hx

/-- A CALIBRATE opens its entry, and each of its channels has its job (R65, R179, R180). -/
theorem Served.calibrate (h : Served origin table) {cs : List ChannelNo} (hn : cs.Nodup)
    (hc : ∀ c ∈ cs, origin c = none) (hm : ∀ c ∈ cs, ∀ e ∈ table, e.work.measured ≠ some c)
    (h4 : table.length < 4) (ht : ∀ x ∈ table, x.tag ≠ tag) :
    Served (fun c => if c ∈ cs then some (.request tag) else origin c)
      (table ++ [{ tag := tag, work := .calibrate cs [] }]) := by
  obtain ⟨room, tags⟩ := h.opened_tags (e := { tag := tag, work := .calibrate cs [] }) h4 ht
  refine ⟨room, tags, fun x hx => ?_, fun d tag' => ?_, fun x hx d hd => ?_, ?_⟩
  · rcases List.mem_append.1 hx with hx | hx
    · exact h.subjects x hx
    · cases List.mem_singleton.1 hx
      exact hn
  · have lacks : (LongWork.calibrate cs []).Lacks d ↔ d ∈ cs := by simp [LongWork.Lacks]
    have old := h.jobs d tag'
    simp only [List.mem_append, List.mem_singleton, or_and_right, exists_or, exists_eq_left, lacks,
      ← old]
    by_cases hd : d ∈ cs
    · simp [hd, hc d hd]
    · simp [hd]
  · rcases List.mem_append.1 hx with hx | hx
    · rw [if_neg fun hdc => hm d hdc x hx hd]
      exact h.measures x hx d hd
    · cases List.mem_singleton.1 hx
      cases hd
  · simpa [LongWork.measured] using h.distinct

/-- A MEASURE opens its entry, for a channel with no job and no other MEASURE (R181). -/
theorem Served.measure (h : Served origin table) (hc : origin c = none)
    (hm : ∀ e ∈ table, e.work.measured ≠ some c) (h4 : table.length < 4)
    (ht : ∀ x ∈ table, x.tag ≠ tag) (slot count : Nat) :
    Served origin (table ++ [{ tag := tag, work := .measure c slot count [] }]) := by
  obtain ⟨room, tags⟩ := h.opened_tags (e := { tag := tag, work := .measure c slot count [] }) h4 ht
  refine ⟨room, tags, fun x hx => ?_, fun d tag' => ?_, fun x hx d hd => ?_, ?_⟩
  · rcases List.mem_append.1 hx with hx | hx
    · exact h.subjects x hx
    · cases List.mem_singleton.1 hx
      exact .nil
  · rw [h.jobs]
    simp [or_and_right, exists_or, LongWork.Lacks]
  · rcases List.mem_append.1 hx with hx | hx
    · exact h.measures x hx d hd
    · cases List.mem_singleton.1 hx
      cases hd
      exact hc
  · rw [List.filterMap_append, List.nodup_append]
    refine ⟨h.distinct, by simp [LongWork.measured], fun a ha b hb => ?_⟩
    obtain ⟨x, hx, hxa⟩ := List.mem_filterMap.1 ha
    simp only [List.filterMap_cons, LongWork.measured, List.filterMap_nil, List.mem_singleton] at hb
    subst hb
    rintro rfl
    exact hm x hx hxa

/-! ## The state of the part -/

/-- The origin of a channel's job, where it has one (R63). -/
def State.originOf (s : State) (c : ChannelNo) : Option JobOrigin := (s.job c).map Job.origin

/-- What the rules say of jobs and entries but that every entry is unfinished, which fails for a moment
where a job ends and its entry is still to complete. -/
structure State.JobsServed (s : State) : Prop where
  follow : ∀ c, jobFollowsState (s.chan c) (s.job c)
  served : Served s.originOf s.table

section
variable {s t : State} {j : Job} {ch : Channel}

/-- A channel has no job exactly outside CALIBRATING (R63). -/
theorem State.originOf_eq_none (h : ∀ c, jobFollowsState (s.chan c) (s.job c)) (c : ChannelNo) :
    s.originOf c = none ↔ (s.chan c).state ≠ .calibrating := by
  rw [State.originOf, Option.map_eq_none_iff, Ne, State.calibrating_iff_job h c,
    ← Option.isSome_iff_exists, Bool.not_eq_true, Option.isSome_eq_false_iff,
    Option.isNone_iff_eq_none]

theorem State.originOf_eq_some {origin : JobOrigin} :
    s.originOf c = some origin ↔ ∃ j, s.job c = some j ∧ j.origin = origin :=
  Option.map_eq_some_iff

theorem State.WorkKept.jobsServed (h : s.WorkKept) : s.JobsServed := by
  obtain ⟨follow, ⟨room, tags⟩, entries, requests, measures, distinct⟩ := h
  refine ⟨follow, room, tags, fun e he => ?_, fun c tag => ⟨fun hc => ?_, ?_⟩,
    fun e he c hc => (State.originOf_eq_none follow c).2 (measures e he c hc), distinct⟩
  · cases hw : e.work with
    | calibrate subjects results => exact (entries e he subjects results hw).1
    | measure => exact .nil
  · obtain ⟨j, hj, ho⟩ := State.originOf_eq_some.1 hc
    obtain ⟨e, he, ht, lacked⟩ := requests c j tag hj ho
    exact ⟨e, he, ht, LongWork.lacks_iff.2 lacked⟩
  · rintro ⟨e, he, rfl, hl⟩
    obtain ⟨subjects, results, hw, hc, hr⟩ := LongWork.lacks_iff.1 hl
    exact State.originOf_eq_some.2 ((entries e he subjects results hw).2.2 c hc hr)

theorem State.WorkKept.unfinished (h : s.WorkKept) : ∀ e ∈ s.table, e.work.Unfinished := by
  intro e he hm
  cases hw : e.work with
  | calibrate subjects results => exact (h.2.2.1 e he subjects results hw).2.1
  | measure =>
    rw [hw] at hm
    cases hm

theorem State.JobsServed.workKept (h : s.JobsServed) (hu : ∀ e ∈ s.table, e.work.Unfinished) :
    s.WorkKept := by
  obtain ⟨follow, served⟩ := h
  refine ⟨follow, ⟨served.room, served.tags⟩,
    fun e he subjects results hw => ⟨?_, ?_, fun c hc hr => ?_⟩, fun c j tag hj ho => ?_,
    fun e he c hc => (State.originOf_eq_none follow c).1 (served.measures e he c hc), served.distinct⟩
  · have := served.subjects e he
    rwa [hw] at this
  · have := hu e he
    rw [hw] at this
    exact this rfl
  · have lacked := LongWork.lacks_iff.2 ⟨subjects, results, hw, hc, hr⟩
    exact State.originOf_eq_some.1 ((served.origin_iff he).2 lacked)
  · obtain ⟨e, he, ht, hl⟩ := (served.jobs c tag).1 (State.originOf_eq_some.2 ⟨j, hj, ho⟩)
    exact ⟨e, he, ht, LongWork.lacks_iff.1 hl⟩

theorem State.workKept_iff (s : State) :
    s.WorkKept ↔ s.JobsServed ∧ ∀ e ∈ s.table, e.work.Unfinished :=
  ⟨fun h => ⟨h.jobsServed, h.unfinished⟩, fun h => h.1.workKept h.2⟩

/-- A change that leaves the table, the origins, and which channels are CALIBRATING. -/
theorem State.WorkKept.of_same (h : s.WorkKept)
    (hc : ∀ c, sameCalibrating (s.chan c) (t.chan c)) (ho : t.originOf = s.originOf)
    (ht : t.table = s.table) : t.WorkKept := by
  obtain ⟨⟨follow, served⟩, unfinished⟩ := s.workKept_iff.1 h
  refine t.workKept_iff.2 ⟨⟨fun c => ?_, by rwa [ho, ht]⟩, by rwa [ht]⟩
  have now : (t.job c).isSome = (s.job c).isSome := by
    have := congrArg Option.isSome (congrFun ho c)
    simpa only [State.originOf, Option.isSome_map] using this
  have cal : ((t.chan c).state == .calibrating) = ((s.chan c).state == .calibrating) := by
    rw [Bool.eq_iff_iff, beq_iff_eq, beq_iff_eq]
    exact hc c
  rw [jobFollowsState, now, cal]
  exact follow c

/-- A change that touches neither the records, nor the jobs, nor the table. -/
theorem State.WorkKept.of_blocks (h : s.WorkKept) (hc : t.channels = s.channels)
    (hj : t.jobs = s.jobs) (ht : t.table = s.table) : t.WorkKept := by
  refine h.of_same (fun c => ?_) (funext fun c => ?_) ht
  · rw [show t.chan c = s.chan c by simp only [State.chan, hc]]
    exact Iff.rfl
  · simp only [State.originOf, State.job, hj]

/-- A record that changes, and stays in CALIBRATING or out of it. -/
theorem State.WorkKept.setChan (h : s.WorkKept) (hs : sameCalibrating (s.chan c) ch) :
    (s.setChan c ch).WorkKept := by
  refine h.of_same (fun d => ?_) rfl rfl
  by_cases hd : d = c
  · subst hd
    rwa [State.chan_setChan_self]
  · rw [State.chan_setChan_ne s ch hd]
    exact Iff.rfl

theorem State.originOf_setJob (s : State) (c : ChannelNo) (j : Option Job) :
    (s.setJob c j).originOf = Function.update s.originOf c (j.map Job.origin) := by
  funext d
  by_cases hd : d = c
  · subst hd
    rw [Function.update_self, State.originOf, State.job_setJob_self]
  · rw [Function.update_of_ne hd, State.originOf, State.job_setJob_ne s j hd, State.originOf]

/-- A record and its job change together (R63). -/
theorem State.JobsServed.follow_set (h : s.JobsServed) {x : Option Job}
    (hx : jobFollowsState ch x) (d : ChannelNo) :
    jobFollowsState (((s.setChan c ch).setJob c x).chan d) (((s.setChan c ch).setJob c x).job d) := by
  by_cases hd : d = c
  · subst hd
    rwa [State.job_setJob_self, show ((s.setChan d ch).setJob d x).chan d = ch from
      s.chan_setChan_self d ch]
  · rw [State.job_setJob_ne _ x hd, show ((s.setChan c ch).setJob c x).chan d = s.chan d from
      s.chan_setChan_ne ch hd]
    exact h.follow d

/-- An automatic job starts (R64, R66). -/
theorem State.WorkKept.createAutomatic (h : s.WorkKept) (hw : s.wantsAutoJob c = true) :
    (s.createJob c .automatic).WorkKept := by
  obtain ⟨jobsServed, unfinished⟩ := s.workKept_iff.1 h
  obtain ⟨uncal, -, unmeasured⟩ := (s.wantsAutoJob_iff c).1 hw
  refine (State.workKept_iff _).2 ⟨⟨jobsServed.follow_set rfl, ?_⟩, unfinished⟩
  have origins : (s.createJob c .automatic).originOf
      = Function.update s.originOf c (some .automatic) := s.originOf_setJob c _
  rw [origins]
  have jobless := (State.originOf_eq_none jobsServed.follow c).2 (by simp [uncal])
  exact jobsServed.served.automatic (by simp [jobless]) (by simp) (.inr unmeasured)

/-! ## The end of a job -/

/-- A result joins the CALIBRATE entry with its tag (R77). -/
theorem State.appendResult_table {s : State} {tag : Byte} {e : PendingEntry}
    {subjects : List ChannelNo} {results : List CalResult} (he : s.entryOfTag tag = some e)
    (hw : e.work = .calibrate subjects results) (y : CalResult) :
    (s.appendResult tag y).table
      = s.table.replace e { e with work := .calibrate subjects (results ++ [y]) } := by
  unfold State.appendResult
  rw [he]
  dsimp only
  rw [hw]

/-- An ended job leaves the table, or its result joins the entry of its request (R77, R78). -/
theorem State.JobsServed.endJob_table (h : s.JobsServed) (hj : s.job c = some j) (o : CalOutcome)
    (ch : Channel) (events : List Body) :
    (j.origin = .automatic ∧ (s.endJob c j o ch events).table = s.table)
      ∨ ∃ e ∈ s.table, ∃ subjects results, j.origin = .request e.tag
        ∧ e.work = .calibrate subjects results
        ∧ (s.endJob c j o ch events).table
          = s.table.replace e
            { e with work := .calibrate subjects (results ++ [⟨c, o, ch.config.windowCode⟩]) } := by
  cases ho : j.origin with
  | automatic =>
    rw [State.endJob_automatic s c ho]
    exact .inl ⟨rfl, rfl⟩
  | request tag =>
    obtain ⟨e, he, rfl, hl⟩ := (h.served.jobs c tag).1 (State.originOf_eq_some.2 ⟨j, hj, ho⟩)
    obtain ⟨subjects, results, hw, -⟩ := LongWork.lacks_iff.1 hl
    rw [State.endJob_request s c ho]
    exact .inr ⟨e, he, subjects, results, rfl, hw, State.appendResult_table
      (s := s.jobEnded c ch events) (State.entryOfTag_of_mem h.served.tags he) hw _⟩

/-- A job ends, and leaves every entry but its own as it was (R74 to R78). -/
theorem State.JobsServed.endJob (h : s.JobsServed) (hj : s.job c = some j)
    (hs : ch.state ≠ .calibrating) (o : CalOutcome) (events : List Body) :
    (s.endJob c j o ch events).JobsServed
      ∧ (s.endJob c j o ch events).originOf = Function.update s.originOf c none
      ∧ ∀ e ∈ (s.endJob c j o ch events).table, e ∈ s.table ∨ j.origin = .request e.tag := by
  obtain ⟨-, hchannels, hjobs, -⟩ := s.endJob_blocks c j o ch events
  have origins : (s.endJob c j o ch events).originOf = Function.update s.originOf c none := by
    rw [show Function.update s.originOf c none = ((s.setChan c ch).setJob c none).originOf from
      (State.originOf_setJob _ c none).symm]
    funext d
    simp only [State.originOf, State.job, hjobs]
  have follow : ∀ d, jobFollowsState ((s.endJob c j o ch events).chan d)
      ((s.endJob c j o ch events).job d) := fun d => by
    have := h.follow_set (c := c) (ch := ch) (x := none) (beq_eq_false_iff_ne.2 hs).symm d
    simp only [State.chan, State.job, hchannels, hjobs] at this ⊢
    exact this
  have own : s.originOf c = some j.origin := State.originOf_eq_some.2 ⟨j, hj, rfl⟩
  rcases h.endJob_table hj o ch events with
    ⟨ho, ht⟩ | ⟨e, he, subjects, results, ho, hw, ht⟩ <;> rw [ho] at own
  · exact ⟨⟨follow, by
      rw [origins, ht]
      exact h.served.automatic (by simp [own]) (by simp) (.inl rfl)⟩, origins,
      fun x hx => .inl (ht ▸ hx)⟩
  · refine ⟨⟨follow, ?_⟩, origins, fun x hx => ?_⟩
    · rw [origins, ht]
      exact h.served.result he hw ⟨c, o, ch.config.windowCode⟩ own
    · rw [ht] at hx
      rcases (mem_replace_iff h.served.tags he (by rfl) x).1 hx with rfl | ⟨hx, -⟩
      · exact .inr ho
      · exact .inl hx

/-- An entry that lacks no result completes (R169). -/
theorem State.JobsServed.completeEntry (h : s.JobsServed) {e : PendingEntry}
    (hl : ∀ c, ¬ e.work.Lacks c) (status : Status) : (s.completeEntry e status).JobsServed :=
  ⟨h.follow, h.served.erase hl⟩

/-- An entry leaves a table in which no other is finished. -/
theorem unfinished_erase {table : List PendingEntry} {e : PendingEntry}
    (hn : (table.map PendingEntry.tag).Nodup) (he : e ∈ table)
    (h : ∀ x ∈ table, x.tag ≠ e.tag → x.work.Unfinished) :
    ∀ x ∈ table.erase e, x.work.Unfinished := fun x hx =>
  have hmem := List.mem_of_mem_erase hx
  h x hmem fun ht => (hn.of_map _).not_mem_erase (entry_unique hn he hmem ht ▸ hx)

/-- The entry of an ended job completes, if it now holds every result (R77, R80). -/
theorem State.JobsServed.closeEntryOf (h : s.JobsServed) {origin : JobOrigin}
    (hu : ∀ e ∈ s.table, e.work.Unfinished ∨ origin = .request e.tag) (status : Option Status) :
    (s.closeEntryOf origin status).WorkKept := by
  refine (State.workKept_iff _).2 ?_
  unfold State.closeEntryOf
  cases origin with
  | automatic => exact ⟨h, fun e he => (hu e he).resolve_right (fun h => (nomatch h))⟩
  | request tag =>
    have others : ∀ e ∈ s.table, e.tag ≠ tag → e.work.Unfinished := fun e he ht =>
      (hu e he).resolve_right fun h => ht (by cases h; rfl)
    dsimp only
    split
    · rename_i e he
      obtain ⟨hmem, rfl⟩ := State.mem_of_entryOfTag he
      split
      · rename_i hall
        exact ⟨h.completeEntry (LongWork.not_lacks_of_hasAllResults hall) _,
          unfinished_erase h.served.tags hmem others⟩
      · rename_i hall
        refine ⟨h, fun x hx => ?_⟩
        by_cases ht : x.tag = e.tag
        · cases entry_unique h.served.tags hmem hx ht
          exact LongWork.unfinished_of_not_hasAllResults hall
        · exact others x hx ht
    · rename_i he
      exact ⟨h, fun x hx => others x hx (State.entryOfTag_eq_none.1 he x hx)⟩

/-- The end of a job, and of its entry with it (R74 to R78). -/
theorem State.WorkKept.ended (h : s.WorkKept) (hj : s.job c = some j)
    (hs : ch.state ≠ .calibrating) (o : CalOutcome) (events : List Body) (status : Option Status) :
    ((s.endJob c j o ch events).closeEntryOf j.origin status).WorkKept := by
  obtain ⟨jobsServed, unfinished⟩ := s.workKept_iff.1 h
  obtain ⟨endServed, -, entries⟩ := jobsServed.endJob hj hs o events
  exact endServed.closeEntryOf (fun e he => (entries e he).imp (unfinished e) id) status

/-! ## The CANCEL of a CALIBRATE -/

/-- The jobs of several channels, all of one request, end; the other entries stay as they were (R79). -/
theorem State.JobsServed.abortJobs (h : s.JobsServed) {tag : Byte} (cs : List ChannelNo)
    (ho : ∀ c ∈ cs, ∀ o ∈ s.originOf c, o = .request tag) :
    (cs.foldl State.abortJob s).JobsServed
      ∧ (∀ c, ∀ o ∈ (cs.foldl State.abortJob s).originOf c, o ∈ s.originOf c ∧ c ∉ cs)
      ∧ ∀ e ∈ (cs.foldl State.abortJob s).table, e ∈ s.table ∨ e.tag = tag := by
  induction cs generalizing s with
  | nil => exact ⟨h, fun c o hc => ⟨hc, List.not_mem_nil⟩, fun e he => .inl he⟩
  | cons c rest ih =>
    have one : (s.abortJob c).JobsServed
        ∧ (s.abortJob c).originOf = Function.update s.originOf c none
        ∧ ∀ e ∈ (s.abortJob c).table, e ∈ s.table ∨ e.tag = tag := by
      unfold State.abortJob
      cases hj : s.job c with
      | none =>
        have : s.originOf c = none := by rw [State.originOf, hj, Option.map_none]
        exact ⟨h, by rw [← this, Function.update_eq_self], fun e he => .inl he⟩
      | some j =>
        obtain ⟨served, origins, entries⟩ := h.endJob (ch := (s.chan c).calibrationFails) hj
          (fun hs => (nomatch hs)) .aborted []
        have own := ho c List.mem_cons_self j.origin (by rw [State.originOf, hj]; rfl)
        refine ⟨served, origins, fun e he => (entries e he).imp id fun hr => ?_⟩
        cases own.symm.trans hr
        rfl
    obtain ⟨served, origins, entries⟩ := one
    have kept : ∀ d, ∀ o ∈ (s.abortJob c).originOf d, o ∈ s.originOf d ∧ d ≠ c := fun d o hd => by
      rw [origins] at hd
      by_cases hdc : d = c
      · rw [hdc, Function.update_self] at hd
        cases hd
      · rw [Function.update_of_ne hdc] at hd
        exact ⟨hd, hdc⟩
    obtain ⟨served', origins', entries'⟩ := ih served fun d hd o hod =>
      ho d (List.mem_cons_of_mem c hd) o (kept d o hod).1
    refine ⟨served', fun d o hd => ?_, fun e he => (entries' e he).elim (entries e) .inr⟩
    obtain ⟨hd', hrest⟩ := origins' d o hd
    obtain ⟨hs, hdc⟩ := kept d o hd'
    exact ⟨hs, fun hm => (List.mem_cons.1 hm).elim hdc hrest⟩

theorem State.mem_jobsOfTag (s : State) (tag : Byte) (c : ChannelNo) :
    c ∈ s.jobsOfTag tag ↔ s.originOf c = some (.request tag) := by
  unfold State.jobsOfTag State.originOf
  cases hj : s.job c <;> simp [allChannels, hj]

/-- A CANCEL ends the jobs of a CALIBRATE, and completes it (R79, R183). -/
theorem State.WorkKept.cancelCalibrate (h : s.WorkKept) (tag : Byte) :
    (s.cancelCalibrate tag).WorkKept := by
  obtain ⟨jobsServed, unfinished⟩ := s.workKept_iff.1 h
  obtain ⟨served, origins, entries⟩ := jobsServed.abortJobs (tag := tag) (s.jobsOfTag tag)
    fun c hc o ho => Option.some.inj (ho.symm.trans ((s.mem_jobsOfTag tag c).1 hc))
  have others : ∀ e ∈ (s.abortJobsOfTag tag).table, e.tag ≠ tag → e.work.Unfinished :=
    fun e he ht => unfinished e ((entries e he).resolve_right ht)
  have ended : ∀ c, (s.abortJobsOfTag tag).originOf c ≠ some (.request tag) := fun c hc => by
    obtain ⟨was, hcs⟩ := origins c _ hc
    exact hcs ((s.mem_jobsOfTag tag c).2 was)
  refine (State.workKept_iff _).2 ?_
  unfold State.cancelCalibrate
  dsimp only
  split
  · rename_i e he
    obtain ⟨hmem, rfl⟩ := State.mem_of_entryOfTag he
    exact ⟨State.JobsServed.completeEntry served
        (fun c hl => ended c ((served.served.origin_iff hmem).2 hl)) _,
      unfinished_erase served.served.tags hmem others⟩
  · rename_i he
    exact ⟨served, fun e hmem => others e hmem (State.entryOfTag_eq_none.1 he e hmem)⟩

/-! ## Moves, effects and steps -/

/-- An entry that is no CALIBRATE completes (R169). -/
theorem State.WorkKept.completeMeasure (h : s.WorkKept) {e : PendingEntry}
    (hw : e.work.measured.isSome = true) (status : Status) : (s.completeEntry e status).WorkKept := by
  obtain ⟨jobsServed, unfinished⟩ := s.workKept_iff.1 h
  refine (State.workKept_iff _).2 ⟨jobsServed.completeEntry (fun c hl => ?_) status,
    fun x hx => unfinished x (List.mem_of_mem_erase hx)⟩
  rw [hl.measured] at hw
  cases hw

/-- A sample joins its MEASURE entry (R15). -/
theorem State.WorkKept.sampled (h : s.WorkKept) {e : PendingEntry} {slot count : Nat}
    {results : List MeasureResult} (he : e ∈ s.table) (hw : e.work = .measure c slot count results)
    (results' : List MeasureResult) :
    ({ s with table := s.table.replace e { e with work := .measure c slot count results' } } :
      State).WorkKept := by
  obtain ⟨⟨follow, served⟩, unfinished⟩ := s.workKept_iff.1 h
  refine (State.workKept_iff _).2 ⟨⟨follow, served.sampled he hw results'⟩, fun x hx => ?_⟩
  rcases (mem_replace_iff served.tags he (by rfl) x).1 hx with rfl | ⟨hx, -⟩
  · exact fun hm => nomatch hm
  · exact unfinished x hx

/-- A job takes a step, and keeps its origin (R69). -/
theorem State.WorkKept.advance (h : s.WorkKept) {j' : Job} (hj : s.job c = some j)
    (ho : j'.origin = j.origin) (hs : sameCalibrating (s.chan c) ch) :
    ((s.setChan c ch).setJob c (some j')).WorkKept := by
  refine (h.setChan hs).of_same (fun _ => Iff.rfl) ?_ rfl
  have own : (s.setChan c ch).originOf c = some j'.origin := by
    rw [State.originOf, show (s.setChan c ch).job c = s.job c from rfl, hj, Option.map_some, ho]
  rw [State.originOf_setJob, Option.map_some, ← own, Function.update_eq_self]

/-- Every move of a block keeps the jobs and the entries at each other's service. -/
theorem State.WorkKept.move (h : s.WorkKept) (hm : Move s t) : t.WorkKept := by
  cases hm with
  | channel c ch hc hc' => exact h.setChan (iff_of_false hc' hc)
  | channels f hf =>
    refine h.of_same (fun c => ?_) ?_ (s.mapChannels_table f)
    · rw [State.chan_mapChannels]
      exact hf c
    · funext c
      simp only [State.originOf, State.job, State.mapChannels_jobs]
  | create c hw => exact h.createAutomatic hw
  | advance c j j' ch hj ho hs => exact h.advance hj ho hs
  | ended c j o ch events status hj hs => exact h.ended hj hs o events status
  | measured e c slot count results results' he hw => exact h.sampled he hw results'
  | completed e status _ hw => exact h.completeMeasure hw status
  | cancelled e => exact h.cancelCalibrate e.tag
  | post | sched | freed | taken | abandon | drawn => exact h.of_blocks rfl rfl rfl
  | keys f => exact h.of_blocks (s.mapKeys_channels f) (s.mapKeys_jobs f) (s.mapKeys_table f)

theorem State.WorkKept.moves (h : s.WorkKept) (hm : Moves s t) : t.WorkKept :=
  Moves.keeps (p := State.WorkKept) (fun _ _ hm h => h.move hm) hm h

/-- A SET_CHANNEL takes no channel into CALIBRATING (R31 to R33). -/
theorem Channel.configure_not_calibrating {ch : Channel} (h : ch.state ≠ .calibrating)
    (g : ChannelConfig) : (ch.configure g).state ≠ .calibrating := by
  unfold Channel.configure
  split
  · unfold Channel.reconfigure
    dsimp only
    split <;> exact fun h => nomatch h
  · split
    · exact fun h => nomatch h
    · exact h

/-- A channel that is not busy has no job and no MEASURE (R166). -/
theorem State.JobsServed.idle_of_not_busy (h : s.JobsServed) (hb : s.channelBusy c = false) :
    s.originOf c = none ∧ ∀ e ∈ s.table, e.work.measured ≠ some c := by
  have free := mt (s.channelBusy_iff c).2 (Bool.eq_false_iff.1 hb)
  rw [not_or] at free
  exact ⟨(State.originOf_eq_none h.follow c).2 free.1, fun e he hm => free.2 ⟨e, he, hm⟩⟩

/-- The records and the jobs after the creation of a CALIBRATE's jobs (R65). -/
theorem State.createJobs_each (s : State) (tag : Byte) {cs : List ChannelNo} (hn : cs.Nodup)
    (c : ChannelNo) :
    (s.createJobs tag cs).chan c = (if c ∈ cs then (s.chan c).jobCreated else s.chan c)
      ∧ (s.createJobs tag cs).job c
        = if c ∈ cs then some (newJob (s.nextJob + cs.idxOf c) (.request tag) (s.chan c))
          else s.job c := by
  unfold State.createJobs
  rw [State.createJobs_eq _ _ _ hn]
  constructor
  · simp [State.chan]
  · simp [State.job]

theorem State.createJobs_table (s : State) (tag : Byte) {cs : List ChannelNo} (hn : cs.Nodup) :
    (s.createJobs tag cs).table = s.table := by
  unfold State.createJobs
  rw [State.createJobs_eq _ _ _ hn]

/-- A CALIBRATE that passes its checks opens its entry and creates its jobs (R180). -/
theorem State.WorkKept.calibrate (h : s.WorkKept) (tag : Byte) {cs : List ChannelNo} (hne : cs ≠ [])
    (hn : cs.Nodup) (hb : ∀ c ∈ cs, s.channelBusy c = false) (h4 : s.table.length < 4)
    (ht : s.entryOfTag tag = none) :
    ((s.openEntry tag (.calibrate cs [])).createJobs tag cs).WorkKept := by
  obtain ⟨jobsServed, unfinished⟩ := s.workKept_iff.1 h
  have idle := fun c hc => jobsServed.idle_of_not_busy (hb c hc)
  have each := (s.openEntry tag (.calibrate cs [])).createJobs_each tag hn
  have table := (s.openEntry tag (.calibrate cs [])).createJobs_table tag hn
  have origins : ((s.openEntry tag (.calibrate cs [])).createJobs tag cs).originOf
      = fun c => if c ∈ cs then some (.request tag) else s.originOf c := by
    funext c
    rw [State.originOf, (each c).2]
    split <;> rfl
  refine (State.workKept_iff _).2 ⟨⟨fun c => ?_, ?_⟩, fun x hx => ?_⟩
  · rw [(each c).1, (each c).2]
    split
    · rfl
    · exact jobsServed.follow c
  · rw [origins, table]
    exact jobsServed.served.calibrate hn (fun c hc => (idle c hc).1) (fun c hc => (idle c hc).2) h4
      (State.entryOfTag_eq_none.1 ht)
  · rw [table] at hx
    rcases List.mem_append.1 hx with hx | hx
    · exact unfinished x hx
    · cases List.mem_singleton.1 hx
      obtain ⟨c, hc⟩ := List.exists_mem_of_ne_nil cs hne
      exact fun _ => ⟨c, hc, List.not_mem_nil⟩

/-- A MEASURE that passes its checks opens its entry (R181). -/
theorem State.WorkKept.measure (h : s.WorkKept) (tag : Byte) (hb : s.channelBusy c = false)
    (h4 : s.table.length < 4) (ht : s.entryOfTag tag = none) (slot count : Nat) :
    (s.openEntry tag (.measure c slot count [])).WorkKept := by
  obtain ⟨jobsServed, unfinished⟩ := s.workKept_iff.1 h
  obtain ⟨idle, unmeasured⟩ := jobsServed.idle_of_not_busy hb
  refine (State.workKept_iff _).2 ⟨⟨jobsServed.follow, jobsServed.served.measure idle unmeasured h4
    (State.entryOfTag_eq_none.1 ht) slot count⟩, fun x hx => ?_⟩
  rcases List.mem_append.1 hx with hx | hx
  · exact unfinished x hx
  · cases List.mem_singleton.1 hx
    exact fun hm => nomatch hm

/-- A reset leaves no job and an empty table (R185). -/
theorem State.workKept_blocksReset (s : State) (queue : Queue) (address : BitVec 7)
    (cause : ResetCause) (inReset : Option ResetCause) :
    (s.blocksReset queue address cause inReset).WorkKept :=
  State.reset_workKept.of_blocks rfl rfl rfl

/-- Every effect of a command keeps the jobs and the entries at each other's service. -/
theorem State.WorkKept.effect (h : s.WorkKept) (he : Effect s t) : t.WorkKept := by
  cases he with
  | nothing => exact h
  | settled e =>
    unfold State.settleEnd
    split <;> exact h.of_blocks rfl rfl rfl
  | halved e cycles =>
    unfold State.halfWindowEnd
    split <;> exact h.of_blocks rfl rfl rfl
  | completed e cycles => exact h.moves (.burstComplete s e cycles)
  | period => exact h.moves (.periodExpiry s)
  | inactivity => exact h.moves (.inactivityExpiry s)
  | maxOn c => exact h.moves (.maxOnExpiry s c)
  | ticked =>
    refine h.of_same (fun c => ?_) (funext fun c => by simp only [State.originOf, State.job, State.tick])
      (by simp only [State.tick])
    rw [show s.tick.chan c = { s.chan c with maxOn := (s.chan c).maxOn.tick } by
      simp [State.chan, State.tick]]
    exact Iff.rfl
  | reset queue address cause inReset => exact s.workKept_blocksReset queue address cause inReset
  | configured c g _ hb =>
    have hc := State.not_calibrating_of_not_busy hb
    exact (h.setChan (iff_of_false (Channel.configure_not_calibrating hc g) hc)).moves
      (.autoJobIfScanned _ c)
  | keyWritten | listWritten | timed => exact h.of_blocks rfl rfl rfl
  | moded m => exact h.moves (.setMode s m)
  | calibrated tag cs hne hn _ hb h4 ht => exact (h.calibrate tag hne hn hb h4 ht).moves (.workTaken _)
  | measured tag x _ _ hb h4 ht => exact (h.measure tag hb h4 ht x.slot x.count).moves (.workTaken _)
  | cancelled e he => exact h.moves (.cancelEntry s e he)

end

end Sys2Proof.Machine

namespace Sys2Proof

open Machine

/-- Settles O56: the one effect of a step, between changes of the port and the queue alone. -/
theorem workIsKept : Obligations.WorkIsKept := by
  intro s t h hs
  obtain ⟨u, taken, v, effect, answered⟩ := step_comes hs
  have before := h.of_blocks taken.channels taken.jobs taken.table
  exact (before.effect effect).of_blocks answered.channels answered.jobs answered.table

end Sys2Proof
end

section
/-! CALIBRATE: its checks in their order, the entry and the jobs it opens, and the work it signals (O21). -/

namespace Sys2Proof.Machine

section
variable {s : State} {i : SlotId} {f : Frame} {tag : Byte} {cs named : List ChannelNo}

theorem exec_calibrate (h : s.Takes 0x30 i f) :
    exec .calibrate s = .next ((s.afterTake i).doCalibrate f) :=
  congrArg _ (State.takeRequest_of_takes h rfl)

/-- A listed channel above 23 is RANGE (R179). -/
theorem State.doCalibrate_range {n : Byte} {bytes : List Byte} (hp : f.payload = n :: bytes)
    (hn : bytes.length = n.toNat) (hl : bytes.length ≤ 24) (hb : ∃ b ∈ bytes, 23 < b.toNat) :
    s.doCalibrate f = s.afterReply f.tag .range := by
  have read : parseCalibrate f.payload = .error .range := by
    have accepted : calibrateLengthOk (n :: bytes) = true := by
      simp only [calibrateLengthOk, inRange, byteAt, List.length_cons, List.getD_cons_zero, ← hn,
        Bool.and_eq_true, decide_eq_true_eq]
      omega
    rw [hp, parseCalibrate, if_pos accepted, List.drop_one, List.tail_cons, channelList_eq_none hb]
  unfold State.doCalibrate
  rw [read, State.perform_error]

/-- The channels a CALIBRATE names (R179). -/
theorem State.namedChannels_eq (s : State) (cs : List ChannelNo) :
    s.namedChannels cs
      = if cs = [] then (List.finRange 24).filter fun c => (s.chan c).config.enabled else cs :=
  if_congr List.isEmpty_iff rfl rfl

/-- The checks of CALIBRATE in their order (R166, R179). -/
theorem State.calibrateChecks_eq (s : State) (tag : Byte) (cs : List ChannelNo)
    (h : s.namedChannels cs = named) :
    firstFailure (s.calibrateChecks tag cs)
      = if named = [] ∨ ∃ c ∈ named, (s.chan c).state = .off then some .state
        else if ¬ named.Nodup then some .conflict
        else if ∃ c ∈ named, (s.chan c).state = .calibrating
            ∨ ∃ e ∈ s.table, e.work.measured = some c then some .busy
        else if 4 ≤ s.table.length then some .full
        else if ∃ e ∈ s.table, e.tag = tag then some .tagInUse
        else none := by
  subst h
  unfold State.calibrateChecks State.tableChecks
  simp only [List.cons_append, List.nil_append, firstFailure_cons, firstFailure_nil]
  refine if_congr ?_ rfl (if_congr ?_ rfl (if_congr ?_ rfl (if_congr ?_ rfl (if_congr ?_ rfl rfl))))
  · simp
  · rw [hasRepeat_eq, decide_eq_true_iff]
  · simp only [List.any_eq_true, State.channelBusy_iff]
  · exact decide_eq_true_iff
  · simp [State.entryOfTag]

/-- A CALIBRATE that fails a check is refused (R165, R166). -/
theorem State.doCalibrate_refused {status : Status} (hl : cs.length ≤ 24)
    (hp : f.payload = BitVec.ofNat 8 cs.length :: cs.map fun c : ChannelNo => BitVec.ofNat 8 c.val)
    (h : firstFailure (s.calibrateChecks f.tag cs) = some status) :
    s.doCalibrate f = s.afterReply f.tag status := by
  unfold State.doCalibrate
  rw [hp, parseCalibrate_spelled cs hl, State.perform_of_failed h]

/-- A CALIBRATE that passes its checks opens its entry, creates its jobs and signals the work (R180). -/
theorem State.doCalibrate_passed (hl : cs.length ≤ 24)
    (hp : f.payload = BitVec.ofNat 8 cs.length :: cs.map fun c : ChannelNo => BitVec.ofNat 8 c.val)
    (h : firstFailure (s.calibrateChecks f.tag cs) = none) (hn : s.namedChannels cs = named) :
    s.doCalibrate f
      = (((s.openEntry f.tag (.calibrate named [])).createJobs f.tag named).workTaken).afterReply
          f.tag .accepted := by
  subst hn
  unfold State.doCalibrate
  rw [hp, parseCalibrate_spelled cs hl, State.perform_of_passed h]
  rfl

/-- A job gives a SERVICE cycle a burst to make (R86, R88, R90). -/
theorem State.hasBurst_of_job {c : ChannelNo} {j : Job} (hs : (s.chan c).state = .calibrating)
    (hj : s.job c = some j) : s.HasBurst .service := by
  refine ⟨engineOf c, .cal c j.serial, ?_, ?_⟩
  · have item : s.calItem c = some (.cal c j.serial) := by
      rw [State.calItem, if_pos hs, hj, Option.map_some]
    refine List.mem_append_left _ (List.mem_append_right _ (List.mem_filterMap.2 ⟨c, ?_, item⟩))
    simp [allChannels, State.scanEntries]
  · rw [State.judgeItem_cal hj, if_pos rfl]
    rfl

end

end Sys2Proof.Machine

namespace Sys2Proof

open Machine

/-- Settles O21: the checks in their order, then the jobs of the named channels, whose bursts the mode
effect finds. -/
theorem calibrateOpensItsEntry : Obligations.CalibrateOpensItsEntry := by
  refine ⟨fun s i f n bytes ht hp hn hl hb => ?_, fun s i f cs ht hl hp => ?_⟩
  · rw [exec_calibrate ht, State.doCalibrate_range hp hn hl hb]
  intro named refusal opened
  have hnamed : (s.afterTake i).namedChannels cs = named := State.namedChannels_eq _ cs
  have checks : firstFailure ((s.afterTake i).calibrateChecks f.tag cs) = refusal :=
    State.calibrateChecks_eq _ f.tag cs hnamed
  refine ⟨fun status h => ?_, fun h => ?_⟩
  · rw [exec_calibrate ht, State.doCalibrate_refused hl hp (checks.trans h)]
  · have passed : named ≠ [] ∧ named.Nodup := by
      simp only [refusal] at h
      split_ifs at h with first distinct
      exact ⟨fun he => first (.inl he), distinct⟩
    obtain ⟨nonempty, distinct⟩ := passed
    have created : ((s.afterTake i).openEntry f.tag (.calibrate named [])).createJobs f.tag named
        = opened := State.createJobs_eq _ _ _ distinct
    obtain ⟨c, hc⟩ := List.exists_mem_of_ne_nil named nonempty
    have record : opened.chan c = (s.chan c).jobCreated := by simp [opened, State.chan, hc]
    have job : opened.job c
        = some (newJob (s.nextJob + named.idxOf c) (.request f.tag) (s.chan c)) := by
      simp [opened, State.job, hc]
    have burst : opened.HasBurst .service := State.hasBurst_of_job (by rw [record]; rfl) job
    refine ⟨opened.workTaken, opened.workTaken_takes burst, ?_⟩
    rw [exec_calibrate ht, State.doCalibrate_passed hl hp (checks.trans h) hnamed, created]

end Sys2Proof
end

section
/-! What an accepted sample does to a calibration job: the search for the window code (O41), the filling of
a slot (O42), and the two ways to fail (O43). -/

namespace Sys2Proof.Machine

section
variable {j : Job} {ch : Channel} {x : Sample}

/-! ## The search (R70, R72) -/

/-- A job in SEARCH after a CLEAN sample at its mid has narrowed lo and hi (R70). -/
def Job.narrowed (j : Job) (target raw : Nat) : Job :=
  { j with
    faultRun := 0
    lo := if raw < target then j.mid + 1 else j.lo
    hi := if raw < target then j.hi else j.mid }

/-- A job in SEARCH that enters ACQUIRE (R72). -/
def Job.acquiring (j : Job) : Job :=
  { j with phase := .acquire, acquireSlot := 0, cleanCount := 0, sum := 0, noisyCount := 0 }

theorem Job.accept_search (c : ChannelNo) (ch : Channel) (hp : j.phase = .search)
    (hx : x.cls = .clean) :
    j.accept c ch x
      = if (j.narrowed ch.config.target x.raw).lo = (j.narrowed ch.config.target x.raw).hi then
          .goesOn (j.narrowed ch.config.target x.raw).acquiring
            { ch with
              config :=
                { ch.config with windowCode := (j.narrowed ch.config.target x.raw).lo } }
        else .goesOn (j.narrowed ch.config.target x.raw) ch := by
  cases j
  cases x
  subst hp hx
  rfl

/-- A job in SEARCH has `width` codes left, of which the smallest that reaches the target is one, or
else 64 is (R63, R70). -/
structure Job.Searching (j : Job) (target : Nat) (raw : Nat → Nat) (width : Nat) : Prop where
  phase : j.phase = .search
  lo : 1 ≤ j.lo
  width : j.hi + 1 = j.lo + width
  hi : j.hi ≤ 64
  below : ∀ m, 1 ≤ m → m < j.lo → raw m < target
  reached : j.hi = 64 ∨ target ≤ raw j.hi

/-- A CLEAN sample at the mid halves the codes that are left (R70). -/
theorem Job.Searching.narrowed {target width : Nat} {raw : Nat → Nat}
    (h : j.Searching target raw (2 * width)) (hw : 0 < width)
    (mono : ∀ m n, m ≤ n → raw m ≤ raw n) :
    (j.narrowed target (raw j.mid)).Searching target raw width := by
  obtain ⟨phase, lo, codes, hi, below, reached⟩ := h
  have mid : j.mid + 1 = j.lo + width := by
    unfold Job.mid
    omega
  unfold Job.narrowed
  by_cases hr : raw j.mid < target
  · simp only [hr, if_true]
    refine ⟨phase, by dsimp only; omega, by dsimp only; omega, hi, fun m _ hm => ?_, reached⟩
    exact (mono m j.mid (Nat.le_of_lt_succ hm)).trans_lt hr
  · simp only [hr, if_false]
    exact ⟨phase, lo, mid, by dsimp only; omega, below, .inr (Nat.le_of_not_lt hr)⟩

/-! ## The filling of a slot (R73, R76) -/

theorem Job.accept_acquire (c : ChannelNo) (ch : Channel) (hp : j.phase = .acquire)
    (hx : x.cls = .clean) :
    j.accept c ch x = ({ j with faultRun := 0 } : Job).acquireClean ch x.raw := by
  simp only [Job.accept, hx, hp]

/-- The channel whose slot has been filled from the sum of eight raw values (R73). -/
def Channel.filled (ch : Channel) (i sum : Nat) : Channel :=
  ch.modifySlot i fun sl => sl.filledFrom sum

theorem Channel.filled_getElem? (ch : Channel) (i sum k : Nat) {sl : Slot}
    (h : ch.slots[k]? = some sl) :
    (ch.filled i sum).slots[k]?
      = some
        (if k = i then
          { sl with baseline := some (2 * sum), filtered := some (2 * sum), reseed := false }
        else sl) := by
  simp only [Channel.filled, Channel.modifySlot, List.getElem?_modify, h, Option.map_eq_map,
    Option.map_some, eq_comm (a := i)]
  rfl

theorem Channel.filled_length (ch : Channel) (i sum : Nat) :
    (ch.filled i sum).slots.length = ch.slots.length :=
  List.length_modify ..

/-- The mean at slot 0 is a sixteenth of its baseline (R76). -/
theorem Channel.slotZeroMean_eq {ch : Channel} {b : Nat}
    (h : ch.slots[0]?.map Slot.baseline = some (some b)) : ch.slotZeroMean = b / 16 := by
  obtain ⟨sl, hs, hb⟩ := Option.map_eq_some_iff.1 h
  simp only [Channel.slotZeroMean, hs, hb, Option.getD_some]

/-- LOW, HIGH and OK by the distance of the mean from the target (R76). -/
theorem ChannelConfig.successOutcome_iff (g : ChannelConfig) (mean : Nat) :
    (g.successOutcome mean = .low ↔ mean + g.tolerance < g.target)
      ∧ (g.successOutcome mean = .high ↔ g.target + g.tolerance < mean
        ∧ g.target ≤ mean + g.tolerance)
      ∧ (g.successOutcome mean = .ok ∨ g.successOutcome mean = .low
        ∨ g.successOutcome mean = .high) := by
  unfold ChannelConfig.successOutcome
  split_ifs <;> simp <;> omega

/-! ## The two ways to fail (R71, R74, R75) -/

theorem Job.accept_fault (j : Job) (c : ChannelNo) (ch : Channel) {kind : FaultKind}
    (hx : x.cls = .fault kind) :
    j.accept c ch x
      = if j.faultRun + 1 < 3 then .goesOn { j with faultRun := j.faultRun + 1 } ch
        else .ends .fault ch.enterFault [.fault c kind.condition] := by
  simp only [Job.accept, hx]

theorem Job.accept_noisy (j : Job) (c : ChannelNo) (ch : Channel) (hx : x.cls = .noisy) :
    j.accept c ch x
      = if j.noisyCount + 1 < 16 then
          .goesOn { j with faultRun := 0, noisyCount := j.noisyCount + 1 } ch
        else .ends .noise ch.calibrationFails [] := by
  simp only [Job.accept, hx, Job.noisy]

/-- The slots whose baselines are discarded are empty (R22). -/
theorem Channel.discardBaselines_empty (ch : Channel) :
    ∀ sl ∈ ch.discardBaselines.slots, sl.Unfilled ∧ sl.reseed = false := by
  intro sl hsl
  obtain ⟨old, -, rfl⟩ := List.mem_map.1 hsl
  exact ⟨⟨rfl, rfl⟩, rfl⟩

end

end Sys2Proof.Machine

namespace Sys2Proof

open Machine

/-- Settles O41: each sample halves the codes that are left, and six halvings of 64 leave one. -/
theorem searchFindsTheSmallestCode : Obligations.SearchFindsTheSmallestCode := by
  intro j c ch raw phase lo hi mono sampled next
  have accepted := fun (i : Job) (hp : i.phase = .search) =>
    Job.accept_search (x := sampled (i, ch)) c ch hp rfl
  have raw_eq : ∀ i : Job, (sampled (i, ch)).raw = raw i.mid := fun _ => rfl
  have goesOn : ∀ i : Job, i.phase = .search →
      (i.narrowed ch.config.target (raw i.mid)).lo ≠ (i.narrowed ch.config.target (raw i.mid)).hi →
      next (i, ch) = (i.narrowed ch.config.target (raw i.mid), ch) := fun i hp hne => by
    simp only [next, (accepted i hp).trans (if_neg hne), raw_eq]
  have meets : ∀ i : Job, i.phase = .search →
      (i.narrowed ch.config.target (raw i.mid)).lo = (i.narrowed ch.config.target (raw i.mid)).hi →
      next (i, ch) = ((i.narrowed ch.config.target (raw i.mid)).acquiring,
        { ch with
          config :=
            { ch.config with windowCode := (i.narrowed ch.config.target (raw i.mid)).lo } }) :=
    fun i hp he => by
      simp only [next, (accepted i hp).trans (if_pos he), raw_eq]
  have searching : ∀ n, n < 6 → ∃ i, next^[n] (j, ch) = (i, ch)
      ∧ i.Searching ch.config.target raw (2 ^ (6 - n)) := by
    intro n
    induction n with
    | zero =>
      exact fun _ => ⟨j, rfl, phase, by omega, by omega, by omega, fun m _ _ => by omega, .inl hi⟩
    | succ n ih =>
      intro hn
      obtain ⟨i, hi, hs⟩ := ih (by omega)
      rw [show 6 - n = (6 - (n + 1)) + 1 by omega, pow_succ, Nat.mul_comm] at hs
      have narrowed := hs.narrowed (Nat.two_pow_pos _) mono
      have wide : 2 ≤ 2 ^ (6 - (n + 1)) := Nat.le_self_pow (by omega) 2
      refine ⟨_, ?_, narrowed⟩
      have codes := narrowed.width
      rw [Function.iterate_succ_apply', hi, goesOn i hs.phase (by omega)]
  refine ⟨fun n hn => ?_, ?_⟩
  · obtain ⟨i, hi, hs⟩ := searching n hn
    rw [hi]
    have codes := hs.width
    have left := Nat.two_pow_pos (6 - n)
    exact ⟨hs.phase, by dsimp only; omega⟩
  · obtain ⟨i, hi, hs⟩ := searching 5 (by omega)
    have last := Job.Searching.narrowed (width := 1) hs Nat.one_pos mono
    have single := last.width
    have top := last.hi
    rw [Function.iterate_succ_apply', hi, meets i hs.phase (by omega)]
    refine ⟨rfl, rfl, rfl, rfl, rfl, _, rfl, last.lo, by omega, ?_, last.below⟩
    rw [show (i.narrowed ch.config.target (raw i.mid)).lo
      = (i.narrowed ch.config.target (raw i.mid)).hi by omega]
    exact last.reached

/-- Settles O42: the sum grows to the eighth sample, which fills the slot and goes on or succeeds. -/
theorem acquireFillsTheSlot : Obligations.AcquireFillsTheSlot := by
  intro j c ch x hp hx _ hlen
  rw [Job.accept_acquire c ch hp hx]
  unfold Job.acquireClean
  dsimp only
  have each := fun k sl => ch.filled_getElem? j.acquireSlot (j.sum + x.raw) k (sl := sl)
  have length := ch.filled_length j.acquireSlot (j.sum + x.raw)
  refine ⟨fun h => if_pos h, fun h hslot => ?_, fun h hslot => ?_⟩
  · rw [if_neg (by omega), if_pos hslot]
    exact ⟨ch.filled j.acquireSlot (j.sum + x.raw), rfl, rfl, length, each⟩
  · rw [if_neg (by omega), if_neg (by omega)]
    refine ⟨_, (ch.filled j.acquireSlot (j.sum + x.raw)).calibrationSucceeds, rfl, rfl,
      (List.length_map _).trans length, fun k sl hk => ?_, fun b hb => ?_⟩
    · show ((ch.filled j.acquireSlot (j.sum + x.raw)).slots.map _)[k]? = _
      rw [List.getElem?_map, each k sl hk]
      split <;> rfl
    · have mean : (ch.filled j.acquireSlot (j.sum + x.raw)).slotZeroMean = b / 16 := by
        refine Channel.slotZeroMean_eq ?_
        simpa [Channel.calibrationSucceeds, Function.comp_def] using hb
      rw [← mean]
      exact ch.config.successOutcome_iff _

/-- Settles O43, by the bound of each count and by what a failure leaves of the record. -/
theorem jobsFailByFaultOrNoise : Obligations.JobsFailByFaultOrNoise := by
  refine fun j c ch x => ⟨fun kind hx => ?_, fun hx => ?_⟩
  · rw [Job.accept_fault j c ch hx]
    refine ⟨fun h => if_pos h, fun h => ⟨ch.enterFault, (if_neg h.not_gt).trans ?_, rfl, rfl, rfl, rfl,
      rfl, rfl, rfl, ch.discardBaselines_empty⟩⟩
    cases kind <;> rfl
  · rw [Job.accept_noisy j c ch hx]
    exact ⟨fun h => if_pos h, fun h => ⟨ch.calibrationFails, if_neg h.not_gt, rfl, rfl, rfl, rfl, rfl,
      rfl, rfl, rfl, rfl, ch.discardBaselines_empty⟩⟩

end Sys2Proof
end

section
/-! A step on an empty queue (O2). -/

namespace Sys2Proof.Machine

/-- The 1 ms tick at a count: one ms less, down to the last. -/
theorem tick_count (n : Nat) : (if n ≤ 1 then n else n - 1) = max (n - 1) (min n 1) := by
  split <;> omega

theorem Timer.tick_eq (t : Timer) : t.tick = t.map fun n => max (n - 1) (min n 1) := by
  unfold Timer.tick
  simp only [tick_count]

theorem InactivityTimer.tick_eq (t : InactivityTimer) :
    t.tick = match t with
      | .running n => .running (max (n - 1) (min n 1))
      | .stopped => .stopped
      | .expired => .expired := by
  cases t with
  | running n => exact congrArg _ (tick_count n)
  | stopped => rfl
  | expired => rfl

theorem State.chan_tick (s : State) (c : ChannelNo) :
    s.tick.chan c = { s.chan c with maxOn := (s.chan c).maxOn.tick } := by
  simp [State.chan, State.tick]

/-- With no command and no change at the lines waiting, a step is one tick. -/
theorem step_tick {s : State} (h : s.pending = []) (hl : s.lines = []) : step s = .next s.tick := by
  simp [step, h, State.idle, hl]

end Sys2Proof.Machine

namespace Sys2Proof

open Machine

/-- Settles O2: what one change at the lines can do, and what one tick does to each timer. -/
theorem emptyQueueIsOneTick : Obligations.EmptyQueueIsOneTick := by
  refine ⟨fun s x rest hp hl => ?_, fun s hp hl => ?_⟩
  · obtain ⟨b, timer, cs, taken, scl, sda, edge⟩ :=
      State.takeLine_changes { s with lines := rest } x
    refine ⟨_, step_line hp hl, ?_⟩
    rw [taken]
    exact ⟨rfl, scl, sda, edge, by rw [← hp]⟩
  · refine ⟨s.tick, step_tick hp hl, fun c => ?_, ?_, ?_, ?_⟩
    · rw [State.chan_tick, Timer.tick_eq]
    · exact congrArg₂ (fun period inactivity =>
        { s.sched with periodTimer := period, inactivity := inactivity })
        s.sched.periodTimer.tick_eq s.sched.inactivity.tick_eq
    · exact congrArg (fun timer => { s.link with busTimer := timer }) s.link.busTimer.tick_eq
    · unfold State.tick
      rfl

end Sys2Proof
end

section
/-! The end of the cycle in flight: when it has come, and what the end by each kind leaves (R91 to R93). -/

namespace Sys2Proof.Machine

variable {s : State} {cy : Cycle}

/-! ## A cycle that is done -/

theorem State.enginesIdle_iff (s : State) : s.enginesIdle = true ↔ ∀ e, s.engine e = .idle := by
  simp only [State.enginesIdle, Bool.and_eq_true, beq_iff_eq]
  constructor
  · rintro ⟨⟨⟨ha, hb⟩, hc⟩, hd⟩ e
    cases e <;> assumption
  · exact fun h => ⟨⟨⟨h .a, h .b⟩, h .c⟩, h .d⟩

/-- The cycle in flight is done when its lists are empty and the engines are IDLE (R91). -/
theorem State.cycleFinished_iff (s : State) :
    s.cycleFinished = true
      ↔ s.sched.cycle.map Cycle.lists = some ⟨[], [], [], []⟩ ∧ ∀ e, s.engine e = .idle := by
  unfold State.cycleFinished
  cases s.sched.cycle with
  | none => simp
  | some cy =>
    rcases cy with ⟨k, ⟨a, b, c, d⟩, late, owed⟩
    simp [State.enginesIdle_iff, and_assoc]

theorem State.cycleFinished_of_no_cycle (h : s.sched.cycle = none) : s.cycleFinished = false := by
  simp [State.cycleFinished, h]

theorem State.cycleFinished_of_busy {e : EngineId} (h : s.engine e ≠ .idle) :
    s.cycleFinished = false :=
  Bool.eq_false_iff.2 fun hf => h ((s.cycleFinished_iff.1 hf).2 e)

/-- The engines and the work lists decide whether the cycle in flight is done. -/
theorem State.cycleFinished_of_same {t : State} (he : t.engines = s.engines)
    (hl : t.sched.cycle.map Cycle.lists = s.sched.cycle.map Cycle.lists) :
    t.cycleFinished = s.cycleFinished := by
  rw [Bool.eq_iff_iff, State.cycleFinished_iff, State.cycleFinished_iff, hl]
  simp only [State.engine, he]

theorem State.finishCycles_of_not_finished (h : s.cycleFinished = false) (n : Nat) :
    State.finishCycles n s = s := by
  cases n with
  | zero => rfl
  | succ n => simp [State.finishCycles, h]

/-! ## Work gives a SERVICE cycle a burst to make -/

/-- Work remains while a job exists or a MEASURE is pending (R93). -/
theorem State.workRemains_iff (s : State) :
    s.workRemains = true
      ↔ (∃ c, s.job c ≠ none) ∨ ∃ p ∈ s.table, p.work.measured ≠ none := by
  simp [State.workRemains, allChannels, Option.isSome_iff_ne_none]

/-- A pending MEASURE gives every cycle a burst to make (R86, R90). -/
theorem State.hasBurst_of_measure (hn : (s.table.map PendingEntry.tag).Nodup) {p : PendingEntry}
    {c : ChannelNo} (hp : p ∈ s.table) (hm : p.work.measured = some c) (kind : CycleKind) :
    s.HasBurst kind := by
  have listed : .measure c p.tag ∈ s.measurePart (engineOf c) :=
    (State.measurePart_eq_some _ _).2 ⟨p, hp, c, hm, rfl, rfl⟩
  refine ⟨engineOf c, _, List.mem_append_right _ listed, ?_⟩
  obtain ⟨tag, work⟩ := p
  cases work with
  | calibrate subjects results => cases hm
  | measure c' slot count results =>
    cases hm
    rw [State.judgeItem_measure hn hp]
    rfl

/-- Where jobs and entries serve one another, the work that remains is a burst to make (R63, R93). -/
theorem State.WorkKept.hasBurst (h : s.WorkKept) (hr : s.workRemains = true) :
    s.HasBurst .service := by
  obtain ⟨follow, ⟨-, tags⟩, -⟩ := h
  rcases s.workRemains_iff.1 hr with ⟨c, hc⟩ | ⟨p, hp, hm⟩
  · obtain ⟨j, hj⟩ := Option.ne_none_iff_exists'.1 hc
    exact State.hasBurst_of_job ((State.calibrating_iff_job follow c).2 ⟨j, hj⟩) hj
  · obtain ⟨c, hc⟩ := Option.ne_none_iff_exists'.1 hm
    exact State.hasBurst_of_measure tags hp hc .service

/-! ## What the end of a cycle starts -/

theorem State.endCycle_service (hc : s.sched.cycle = some cy) (hk : cy.kind = .service) :
    s.endCycle = s.endServiceCycle := by
  simp only [State.endCycle, hc, hk]

theorem State.endCycle_scan (hc : s.sched.cycle = some cy) (hk : cy.kind ≠ .service) :
    s.endCycle = s.endScanCycle cy.kind := by
  unfold State.endCycle
  rw [hc]
  cases h : cy.kind with
  | service => exact absurd h hk
  | active => simp only [h]
  | doze => simp only [h]

/-- `t` has no cycle in flight, or one that has just been started: by the mode, from IDLE engines, or in
SERVICE for the work that remains of `s`. -/
def State.EndsInto (s t : State) : Prop :=
  t.sched.cycle = none
    ∨ (∃ v : State, v.scanningNow ∧ (∀ e, v.engine e = .idle)
      ∧ t = v.beginCycle v.sched.mode.cycleKind)
    ∨ s.workRemains = true ∧ t = (s.setCycle none).beginCycle .service

/-- The end of a SERVICE cycle (R93, R103). -/
theorem State.endServiceCycle_endsInto (hi : ∀ e, s.engine e = .idle) :
    s.EndsInto s.endServiceCycle := by
  unfold State.endServiceCycle
  dsimp only
  split
  · split
    · exact .inr (.inr ⟨‹_›, rfl⟩)
    · exact .inl rfl
  · rename_i hm
    have kind : s.sched.mode.cycleKind = .active := by rw [hm]; rfl
    exact .inr (.inl ⟨s.setCycle none, .inl hm, hi, kind ▸ rfl⟩)
  · exact .inl rfl
  · exact .inl rfl

/-- The end of an ACTIVE or DOZE cycle (R92). -/
theorem State.endScanCycle_endsInto (hc : s.sched.cycle = some cy) (hi : ∀ e, s.engine e = .idle)
    (k : CycleKind) : s.EndsInto (s.endScanCycle k) := by
  obtain ⟨v, -, -, gone, engines, left, kept⟩ := s.endScanCycle_cases k cy hc
  by_cases hm : v.sched.mode = s.sched.mode
  · rw [kept hm]
    split
    · rename_i marked
      have scanning := s.isScanning_iff.1 (Bool.and_eq_true_iff.1 marked).1
      refine .inr (.inl ⟨v, scanning.of_mode hm, fun e => ?_, by rw [hm]⟩)
      rw [State.engine, engines]
      exact hi e
    · split <;> exact .inl gone
  · rw [left hm]
    exact .inl gone

theorem State.endCycle_endsInto (hc : s.sched.cycle = some cy) (hi : ∀ e, s.engine e = .idle) :
    s.EndsInto s.endCycle := by
  by_cases hk : cy.kind = .service
  · rw [State.endCycle_service hc hk]
    exact State.endServiceCycle_endsInto hi
  · rw [State.endCycle_scan hc hk]
    exact State.endScanCycle_endsInto hc hi cy.kind

/-- A cycle that the mode starts is not left done: with no burst to make it ends, and leaves none. -/
theorem State.finishCycles_begun (hs : s.scanningNow) (hi : ∀ e, s.engine e = .idle) (n : Nat) :
    (State.finishCycles (n + 1) (s.beginCycle s.sched.mode.cycleKind)).cycleFinished = false := by
  unfold State.finishCycles
  split
  · rename_i done
    have empty := (s.cycleFinished_beginCycle _ hi).1 done
    have ended := State.cycleFinished_of_no_cycle (s.endCycle_empty hi hs empty).1
    rwa [State.finishCycles_of_not_finished ended]
  · exact Bool.eq_false_iff.2 ‹_›

/-- No done cycle is left in flight: its end, and that of an empty one that it starts, come in the same
claim (R91). -/
theorem State.WorkKept.settleCycle_not_finished (h : s.WorkKept) :
    s.settleCycle.cycleFinished = false := by
  by_cases done : s.cycleFinished = true
  · obtain ⟨lists, idle⟩ := s.cycleFinished_iff.1 done
    obtain ⟨cy, hc, -⟩ := Option.map_eq_some_iff.1 lists
    have settled : s.settleCycle = State.finishCycles 2 s.endCycle := if_pos done
    rw [settled]
    rcases State.endCycle_endsInto hc idle with gone | ⟨v, scanning, still, begun⟩ | ⟨work, begun⟩
    · have ended := State.cycleFinished_of_no_cycle gone
      rwa [State.finishCycles_of_not_finished ended]
    · rw [begun]
      exact State.finishCycles_begun scanning still 1
    · have burst : (s.setCycle none).HasBurst .service := h.hasBurst work
      have ended : s.endCycle.cycleFinished = false := begun ▸ Bool.eq_false_iff.2 fun done =>
        ((s.setCycle none).cycleFinished_beginCycle .service idle).1 done burst
      rwa [State.finishCycles_of_not_finished ended]
  · have going := Bool.eq_false_iff.2 done
    rwa [State.settleCycle_of_not_finished going]

end Sys2Proof.Machine
end

section
/-! No command leaves a done cycle in flight (O46): a command leaves the engines and the work lists as they
are, or the cycle in flight is settled after it. -/

namespace Sys2Proof.Machine

variable {s t : State}

/-- The marks of the cycle in flight do not say whether it is done. -/
theorem State.cycleFinished_of_marks {f : Cycle → Cycle} (he : t.engines = s.engines)
    (hc : t.sched.cycle = s.sched.cycle.map f) (hf : ∀ cy, (f cy).lists = cy.lists) :
    t.cycleFinished = s.cycleFinished := by
  refine State.cycleFinished_of_same he ?_
  rw [hc, Option.map_map]
  exact congrArg (s.sched.cycle.map ·) (funext hf)

/-! ## Cycles that start -/

theorem State.WorkKept.startCycle_not_finished (h : s.WorkKept) (k : CycleKind) :
    (s.startCycle k).cycleFinished = false :=
  (h.moves (.beginCycle s k)).settleCycle_not_finished

theorem State.WorkKept.engineFree_not_finished (h : s.WorkKept) (e : EngineId) :
    (s.engineFree e).cycleFinished = false :=
  (h.moves ((Move.freed s e).moves.trans (.offer _ e))).settleCycle_not_finished

/-- A change from DOZE to ACTIVE keeps the lists of the cycle in flight, or starts one (R106). -/
theorem State.WorkKept.dozeToActive_not_finished (h : s.WorkKept) (ho : s.cycleFinished = false)
    (cause : ModeCause) : (s.dozeToActive cause).cycleFinished = false := by
  cases hc : s.sched.cycle with
  | some cy =>
    obtain ⟨engines, cy', hc', lists⟩ := (s.dozeToActive_leaves cause).inFlight hc
    rw [State.cycleFinished_of_same engines (by rw [hc', hc, Option.map_some, lists]; rfl), ho]
  | none =>
    have entered := (((Moves.changeMode s .active cause).trans (.reseedNonDoze _)).trans
      (.startInactivity _)).trans (.setQuiet _ false)
    unfold State.dozeToActive
    simp only [hc, Option.isSome_none, Bool.false_eq_true, if_false]
    exact (h.moves entered).startCycle_not_finished .active

theorem State.WorkKept.workSignal_not_finished (h : s.WorkKept) (ho : s.cycleFinished = false) :
    s.workSignal.cycleFinished = false := by
  unfold State.workSignal
  split
  · exact h.dozeToActive_not_finished ho .work
  · exact ho
  · exact ho
  · exact ho

theorem State.WorkKept.autoJobIfScanned_not_finished (h : s.WorkKept)
    (ho : s.cycleFinished = false) (c : ChannelNo) :
    (s.autoJobIfScanned c).cycleFinished = false := by
  unfold State.autoJobIfScanned
  split
  · rename_i due
    have wanted := (Bool.and_eq_true_iff.1 (Bool.and_eq_true_iff.1 due).1).1
    exact (h.createAutomatic wanted).workSignal_not_finished ho
  · exact ho

theorem State.WorkKept.workTaken_not_finished (h : s.WorkKept) (ho : s.cycleFinished = false) :
    s.workTaken.cycleFinished = false := by
  unfold State.workTaken
  split
  · exact (h.moves (.changeMode s .service .work)).startCycle_not_finished .service
  · exact h.workSignal_not_finished ho
  · exact h.workSignal_not_finished ho
  · exact h.workSignal_not_finished ho

/-! ## Changes of mode -/

theorem State.scanningStarted_engines (s : State) (m : Mode) :
    (s.scanningStarted m).engines = s.engines := by
  unfold State.scanningStarted
  rfl

theorem State.scanningStarted_sched (s : State) (m : Mode) :
    (s.scanningStarted m).sched = { s.sched with mode := m } := by
  unfold State.scanningStarted
  rfl

/-- The change of mode into scanning, up to its jobs, keeps the work, the engines and the lists (R104). -/
theorem State.WorkKept.scanningStarted (h : s.WorkKept) (ho : s.cycleFinished = false) (m : Mode) :
    (s.scanningStarted m).WorkKept ∧ (s.scanningStarted m).cycleFinished = false := by
  constructor
  · rw [← State.scanningStarted_eq]
    exact h.moves
      (((Moves.changeMode s m .request).trans (.reseedAll _)).trans (.autoJobs_wanted _))
  · rw [← ho]
    exact State.cycleFinished_of_same (s.scanningStarted_engines m)
      (by rw [State.scanningStarted_sched])

/-- The start of scanning in ACTIVE owes a start to the cycle in flight, or starts one (R104). -/
theorem State.WorkKept.startActive_not_finished (h : s.WorkKept) (ho : s.cycleFinished = false) :
    s.startActive.cycleFinished = false := by
  obtain ⟨kept, going⟩ := h.scanningStarted ho .active
  have started := s.scanningStarted_eq .active
  unfold State.startActive
  dsimp only [State.reseeded] at started ⊢
  rw [started]
  generalize s.scanningStarted .active = u at kept going
  split
  · refine (?_ : _ = u.cycleFinished).trans going
    exact State.cycleFinished_of_marks rfl rfl fun _ => rfl
  · have entered := kept.moves ((Moves.startInactivity u).trans (.setQuiet _ false))
    exact entered.startCycle_not_finished .active

/-- The start of scanning in DOZE starts no cycle but by the signal of its jobs (R104). -/
theorem State.WorkKept.startDoze_not_finished (h : s.WorkKept) (ho : s.cycleFinished = false) :
    s.startDoze.cycleFinished = false := by
  obtain ⟨kept, going⟩ := h.scanningStarted ho .doze
  have started := s.scanningStarted_eq .doze
  unfold State.startDoze
  dsimp only [State.reseeded] at started ⊢
  rw [started]
  generalize s.scanningStarted .doze = u at kept going
  split
  · exact going
  · exact (kept.moves (.restartDozePeriod u)).workSignal_not_finished going

theorem State.activeToDoze_cycleFinished (s : State) (cause : ModeCause) :
    (s.activeToDoze cause).cycleFinished = s.cycleFinished := by
  unfold State.activeToDoze
  dsimp only
  split
  · exact State.cycleFinished_of_marks rfl rfl fun _ => rfl
  · exact State.cycleFinished_of_same rfl rfl

/-- A stop leaves the scheduler as its part there does (R98, R110). -/
theorem State.stopPart_sched (s : State) : s.stopPart.sched = s.stopScheduler.sched :=
  have met := State.completionsInStop_sameOutside (s := s.stopScheduler) rfl
    (Config.stopMeets s.stopScheduler.freeCount)
  s.stopScheduler.meetStop.stopOthers_outside.2.trans met.sched

/-- A stop leaves no cycle in flight (R98, R110). -/
theorem State.stopPart_cycle (s : State) : s.stopPart.sched.cycle = none := by
  rw [s.stopPart_sched]
  rfl

theorem State.WorkKept.setMode_not_finished (h : s.WorkKept) (ho : s.cycleFinished = false)
    (m : Mode) : (s.setMode m).cycleFinished = false := by
  have stopped := State.cycleFinished_of_no_cycle s.stopPart_cycle
  unfold State.setMode
  split
  · exact h.startActive_not_finished ho
  · exact h.startActive_not_finished ho
  · exact h.startDoze_not_finished ho
  · exact stopped
  · exact stopped
  · exact stopped
  · exact (s.activeToDoze_cycleFinished .request).trans ho
  · exact h.dozeToActive_not_finished ho .request
  · exact ho

/-! ## Bursts and expiries -/

theorem State.settleEnd_not_finished (s : State) (e : EngineId) (ho : s.cycleFinished = false) :
    (s.settleEnd e).cycleFinished = false := by
  unfold State.settleEnd
  split
  · refine State.cycleFinished_of_busy (e := e) ?_
    simp
  · exact ho
  · exact ho
  · exact ho

theorem State.halfWindowEnd_not_finished (s : State) (e : EngineId) (cycles : Nat)
    (ho : s.cycleFinished = false) : (s.halfWindowEnd e cycles).cycleFinished = false := by
  unfold State.halfWindowEnd
  split
  · refine State.cycleFinished_of_busy (e := e) ?_
    simp
  · exact ho
  · exact ho
  · exact ho

theorem State.WorkKept.burstComplete_not_finished (h : s.WorkKept) (ho : s.cycleFinished = false)
    (e : EngineId) (cycles : Nat) :
    (s.burstComplete e cycles).cycleFinished = false := by
  unfold State.burstComplete
  split
  · refine State.WorkKept.engineFree_not_finished (h.moves ?_) e
    exact .deliver s _ _ fun counts => counts.sample ‹_› _ _
  · exact ho
  · exact ho
  · exact ho

theorem State.WorkKept.periodExpiry_not_finished (h : s.WorkKept) (ho : s.cycleFinished = false) :
    s.periodExpiry.cycleFinished = false := by
  unfold State.periodExpiry
  split
  · split
    · refine (?_ : _ = s.cycleFinished).trans ho
      exact State.cycleFinished_of_marks rfl rfl fun _ => rfl
    · split
      · exact (h.moves (.setPeriod s none)).startCycle_not_finished _
      · exact ho
  · exact ho

theorem State.inactivityExpiry_cycleFinished (s : State) :
    s.inactivityExpiry.cycleFinished = s.cycleFinished := by
  unfold State.inactivityExpiry
  split
  · split
    · split
      · exact s.activeToDoze_cycleFinished .idleTimeout
      · rfl
    · rfl
  · rfl
  · rfl

theorem State.maxOnExpiry_cycleFinished (s : State) (c : ChannelNo) :
    (s.maxOnExpiry c).cycleFinished = s.cycleFinished := by
  unfold State.maxOnExpiry
  dsimp only
  split <;> rfl

theorem State.tick_cycleFinished (s : State) : s.tick.cycleFinished = s.cycleFinished := by
  simp only [State.cycleFinished, State.enginesIdle, State.tick]

/-! ## CANCEL -/

theorem State.WorkKept.cancelEntry_not_finished (h : s.WorkKept) (ho : s.cycleFinished = false)
    {e : PendingEntry} : (s.cancelEntry e).cycleFinished = false := by
  unfold State.cancelEntry
  split
  · obtain ⟨engines, -, -, sched⟩ := s.cancelCalibrate_blocks e.tag
    rw [State.cycleFinished_of_same engines (by rw [sched]), ho]
  · rename_i c _ _ _ hw
    have measured : e.work.measured.isSome = true := by rw [hw]; rfl
    unfold State.cancelMeasure
    dsimp only
    split
    · have abandoned : (s.setEngine (engineOf c) .idle).WorkKept := h.of_blocks rfl rfl rfl
      exact ((abandoned.completeMeasure measured .cancelled).moves
        (.autoJobIfScanned _ c)).engineFree_not_finished _
    · exact (h.completeMeasure measured .cancelled).autoJobIfScanned_not_finished ho c

/-! ## Every effect -/

/-- What a command does to the blocks behind the port leaves no done cycle in flight (R91). -/
theorem State.WorkKept.effect_not_finished (h : s.WorkKept) (ho : s.cycleFinished = false)
    (he : Effect s t) : t.cycleFinished = false := by
  cases he with
  | nothing => exact ho
  | settled e => exact s.settleEnd_not_finished e ho
  | halved e cycles => exact s.halfWindowEnd_not_finished e cycles ho
  | completed e cycles => exact h.burstComplete_not_finished ho e cycles
  | period => exact h.periodExpiry_not_finished ho
  | inactivity => exact s.inactivityExpiry_cycleFinished.trans ho
  | maxOn c => exact (s.maxOnExpiry_cycleFinished c).trans ho
  | ticked => exact s.tick_cycleFinished.trans ho
  | reset => rfl
  | configured c g _ hb =>
    have before := State.not_calibrating_of_not_busy hb
    have after := Channel.configure_not_calibrating before g
    exact (h.setChan (iff_of_false after before)).autoJobIfScanned_not_finished ho c
  | keyWritten | listWritten | timed => exact ho
  | moded m => exact h.setMode_not_finished ho m
  | calibrated tag cs hne hn _ hb h4 ht =>
    have jobs := State.createJobs_eq (s.openEntry tag (.calibrate cs [])) (.request tag) cs hn
    refine (h.calibrate tag hne hn hb h4 ht).workTaken_not_finished ?_
    rw [← ho]
    exact State.cycleFinished_of_same (by rw [State.createJobs, jobs]; rfl)
      (by rw [State.createJobs, jobs]; rfl)
  | measured tag x _ _ hb h4 ht =>
    exact (h.measure tag hb h4 ht x.slot x.count).workTaken_not_finished ho
  | cancelled e => exact h.cancelEntry_not_finished ho

end Sys2Proof.Machine

namespace Sys2Proof

open Machine

/-- Settles O46: the one effect of a command, between changes of the port and the queue alone. -/
theorem doneCycleEndsInItsClaim : Obligations.DoneCycleEndsInItsClaim := by
  intro c s t h ho run
  obtain ⟨u, taken, v, effect, answered⟩ := exec_comes run
  have before : u.cycleFinished = false :=
    (State.cycleFinished_of_same taken.engines (by rw [taken.sched])).trans ho
  have kept := h.of_blocks taken.channels taken.jobs taken.table
  have after := kept.effect_not_finished before effect
  exact (State.cycleFinished_of_same answered.engines (by rw [answered.sched])).trans after

end Sys2Proof
end

section
/-! The expiries of the period and the inactivity timer (O44). -/

namespace Sys2Proof.Machine

variable {s t : State}

/-! ## The period timer -/

theorem exec_periodExpiry (s : State) : exec .periodExpiry s = .next s.periodExpiry := rfl

/-- With a cycle in flight an expiry marks it late and counts an overrun (R96, R97). -/
theorem State.periodExpiry_late {ms : Nat} {cy : Cycle} (hp : s.sched.periodTimer = some ms)
    (hc : s.sched.cycle = some cy) :
    s.periodExpiry
      = { s with
          sched :=
            { s.sched with
              cycle := some { cy with late := true }
              periodTimer := none
              overruns := min 65535 (s.sched.overruns + 1) } } := by
  simp [State.periodExpiry, State.lateCycle, State.withSched, hp, hc]

/-- With no cycle in flight an expiry starts one, by the mode (R95). -/
theorem State.periodExpiry_starts {ms : Nat} (hp : s.sched.periodTimer = some ms)
    (hc : s.sched.cycle = none) (hs : s.scanningNow) :
    s.periodExpiry = (s.setPeriod none).startCycle s.sched.mode.cycleKind := by
  simp [State.periodExpiry, hp, hc, s.isScanning_iff.2 hs]

/-- A start in ACTIVE or DOZE restarts the period timer, whatever it was (R94). -/
theorem State.RunsCycle.of_setPeriod {p : Timer} (h : (s.setPeriod p).RunsCycle t) :
    s.RunsCycle t := by
  have evaluated : ∀ d, { (s.setPeriod p).evaluateKeys with sched := d }
      = { s.evaluateKeys with sched := d } := fun d => by
    rw [State.evaluateKeys_eq, State.evaluateKeys_eq]
    rfl
  obtain ⟨active, doze⟩ := h
  refine ⟨fun hm => ?_, fun hm => ?_⟩
  · obtain ⟨burst, empty⟩ := active hm
    rw [evaluated] at empty
    exact ⟨burst, empty⟩
  · obtain ⟨burst, empty⟩ := doze hm
    rw [evaluated] at empty
    exact ⟨burst, empty⟩

/-- A scanned doze member has its SCAN item in a DOZE cycle (R86, R87). -/
theorem State.scan_mem_buildList_doze {c : ChannelNo}
    (hm : { channel := c, doze := true } ∈ s.sched.scanList)
    (hs : (s.chan c).state.isScanned = true) :
    .scan c ∈ s.buildList .doze (engineOf c) := by
  have taken : { channel := c, doze := true } ∈ s.scanEntries .doze := List.mem_filter.2 ⟨hm, rfl⟩
  have item : s.scanItem c = some (.scan c) := if_pos hs
  exact List.mem_append_left _ (List.mem_append_left _
    (List.mem_filterMap.2 ⟨_, List.mem_filter.2 ⟨taken, beq_self_eq_true _⟩, item⟩))

theorem State.judgeItem_scan_ne_none {c : ChannelNo} (hs : (s.chan c).state.isScanned = true) :
    s.judgeItem (.scan c) ≠ none := by
  rw [State.judgeItem, if_pos hs]
  exact Option.some_ne_none _

/-- A cycle that starts sets each engine to work that has an item to dispatch (R85, R89). -/
theorem State.beginCycle_engine (hi : ∀ e, s.engine e = .idle) {k : CycleKind} {e : EngineId}
    {item : WorkItem} (hb : item ∈ s.buildList k e) (hj : s.judgeItem item ≠ none) :
    (s.beginCycle k).engine e ≠ .idle := by
  have offered : (s.beginCycle k).engine e = s.afterOffers (s.buildList k e) := by
    rw [s.beginCycle_eq k hi]
    cases e <;> rfl
  rw [offered, ne_eq, State.afterOffers_idle_iff]
  exact fun skipped => hj (skipped item hb)

/-- The expiry in DOZE, with a doze member to scan (R87, R95). -/
theorem State.periodExpiry_doze {ms : Nat} {c : ChannelNo} (hp : s.sched.periodTimer = some ms)
    (hc : s.sched.cycle = none) (hm : s.sched.mode = .doze) (hi : ∀ e, s.engine e = .idle)
    (hl : { channel := c, doze := true } ∈ s.sched.scanList)
    (hs : (s.chan c).state.isScanned = true) :
    ∃ engines cy,
      s.periodExpiry
          = { s with
              engines := engines
              sched := { s.sched with cycle := some cy, periodTimer := some s.sched.dozePeriod } }
        ∧ cy.kind = .doze ∧ cy.late = false ∧ cy.startOwed = false
        ∧ engines.get (engineOf c) ≠ .idle := by
  have still : ∀ e, (s.setPeriod none).engine e = .idle := hi
  have listed := State.scan_mem_buildList_doze (s := s.setPeriod none) hl hs
  have judged := State.judgeItem_scan_ne_none (s := s.setPeriod none) hs
  have burst : (s.setPeriod none).HasBurst .doze :=
    ⟨_, _, listed, Option.isSome_iff_ne_none.2 judged⟩
  have busy := State.beginCycle_engine still listed judged
  rw [State.periodExpiry_starts hp hc (.inr hm), hm, Mode.cycleKind,
    State.startCycle_of_burst still burst]
  rw [State.beginCycle_eq _ _ still] at busy ⊢
  exact ⟨_, _, rfl, rfl, rfl, rfl, busy⟩

/-! ## The inactivity timer -/

/-- Between cycles the change from ACTIVE to DOZE restarts the period timer (R105). -/
theorem State.activeToDoze_between (hc : s.sched.cycle = none) (cause : ModeCause) :
    s.activeToDoze cause
      = { s with
          sched :=
            { s.sched with
              mode := .doze, inactivity := .stopped, quiet := false
              periodTimer := some s.sched.dozePeriod }
          queue := s.queue.offer s.table.length (.mode .doze cause) } := by
  have branch : s.activeToDoze cause = (s.leaveActive cause).restartDozePeriod :=
    if_neg (by simp [hc])
  rw [branch]
  rfl

/-- The expiry in ACTIVE leads into DOZE from a quiet part between cycles, and is remembered otherwise
(R105, R109). -/
theorem exec_inactivityExpiry_active {ms : Nat} (hr : s.sched.inactivity = .running ms)
    (hm : s.sched.mode = .active) :
    exec .inactivityExpiry s
      = .next
        (if s.sched.cycle = none ∧ s.sched.quiet = true then
          { s with
            sched :=
              { s.sched with
                mode := .doze, inactivity := .stopped, quiet := false
                periodTimer := some s.sched.dozePeriod }
            queue := s.queue.offer s.table.length (.mode .doze .idleTimeout) }
        else { s with sched := { s.sched with inactivity := .expired } }) := by
  have expired : exec .inactivityExpiry s
      = .next
        (if s.sched.cycle.isNone && s.sched.quiet then s.activeToDoze .idleTimeout
        else s.setInactivity .expired) := by
    show Host.Outcome.next s.inactivityExpiry = _
    simp only [State.inactivityExpiry, hr, hm, if_true]
  rw [expired]
  by_cases hq : s.sched.cycle = none ∧ s.sched.quiet = true
  · rw [if_pos hq, if_pos (by simpa using hq), State.activeToDoze_between hq.1]
  · rw [if_neg hq, if_neg (by simpa using hq)]
    rfl

end Sys2Proof.Machine

namespace Sys2Proof

open Machine

/-- Settles O44: each expiry by the branch that the cycle in flight and the mode choose. -/
theorem timerExpiriesMoveTheScheduler : Obligations.TimerExpiriesMoveTheScheduler := by
  refine ⟨fun s ms hp => ⟨fun cy hc => ?_, fun hc hs hi => ?_, fun c hc hm hi hl hs => ?_⟩,
    fun s ms hr hm => exec_inactivityExpiry_active hr hm⟩
  · rw [exec_periodExpiry, State.periodExpiry_late hp hc]
  · refine ⟨_, State.RunsCycle.of_setPeriod ((s.setPeriod none).startCycle_runs hi), ?_⟩
    rw [exec_periodExpiry, State.periodExpiry_starts hp hc hs]
    rfl
  · obtain ⟨engines, cy, started, kept⟩ := State.periodExpiry_doze hp hc hm hi hl hs
    exact ⟨engines, cy, congrArg _ started, kept⟩

end Sys2Proof
end

section
/-! The end of a cycle by its kind, at the completion of its last burst (O47). -/

namespace Sys2Proof.Machine

variable {s v w : State} {cy : Cycle} {e : EngineId}

/-! ## The last burst -/

/-- A SCAN or CAL sample is discarded whose generation has moved (R13, R14). -/
theorem State.deliver_discarded {r : BurstRecord} (x : Sample)
    (hp : r.purpose = .scan ∨ ∃ n, r.purpose = .cal n)
    (hg : r.generation ≠ (s.chan r.channel).generation) : s.deliver r x = s := by
  unfold State.deliver
  rcases hp with hp | ⟨n, hp⟩ <;> rw [hp]
  · exact State.deliverScan_discarded x (.inl hg)
  · exact State.deliverCal_discarded x (.inl hg)

/-- An offer from an empty list changes nothing. -/
theorem State.offer_of_empty (hc : s.sched.cycle = some cy) (hl : cy.lists.get e = []) :
    s.offer e = s := by
  have emptied : s.setList e [] = s := by
    have lists : cy.lists.set e [] = cy.lists := by rw [← hl, PerEngine.set_get_self]
    unfold State.setList State.setCycle State.withSched
    rw [hc, Option.map_some, lists, ← hc]
  unfold State.offer
  rw [hc]
  dsimp only
  rw [hl, State.offerList, emptied, ite_self]

/-- The last engine at work returns to IDLE. -/
theorem State.setEngine_last (ho : ∀ other, other ≠ e → s.engine other = .idle) :
    s.setEngine e .idle = s.abandonBursts := by
  have still : ∀ other, (s.setEngine e .idle).engine other = .idle := fun other => by
    by_cases h : other = e
    · rw [h, State.engine_setEngine_self]
    · rw [State.engine_setEngine_ne _ _ h, ho other h]
  unfold State.abandonBursts
  rw [← State.engines_of_idle still]
  rfl

/-- With the lists empty, the return of the last engine to IDLE is the end of the cycle (R91). -/
theorem State.engineFree_last (hc : s.sched.cycle = some cy) (hl : cy.lists = ⟨[], [], [], []⟩)
    (ho : ∀ other, other ≠ e → s.engine other = .idle) :
    s.engineFree e = State.finishCycles 2 s.abandonBursts.endCycle := by
  have empty : cy.lists.get e = [] := by
    rw [hl]
    cases e <;> rfl
  have done : s.abandonBursts.cycleFinished = true := by
    refine s.abandonBursts.cycleFinished_iff.2 ⟨?_, fun e => by cases e <;> rfl⟩
    rw [State.abandonBursts_sched, hc, Option.map_some, hl]
  unfold State.engineFree
  rw [State.setEngine_last ho, State.offer_of_empty (s := s.abandonBursts) hc empty]
  exact if_pos done

/-! ## The end of a SERVICE cycle -/

/-- A SERVICE cycle ends by the mode (R93, R103). -/
theorem State.endServiceCycle_cases (s : State) :
    (s.sched.mode = .service →
        s.endServiceCycle
          = if s.workRemains then (s.setCycle none).beginCycle .service
            else (s.setCycle none).changeMode .stopped .workDone)
      ∧ (s.sched.mode = .active → s.endServiceCycle = (s.setCycle none).beginCycle .active)
      ∧ (s.sched.mode = .doze → s.endServiceCycle = (s.setCycle none).restartDozePeriod) := by
  unfold State.endServiceCycle
  refine ⟨fun h => ?_, fun h => ?_, fun h => ?_⟩ <;> rw [h]

/-- The end of a SERVICE cycle settles: the work that remains is a burst to make, and an empty ACTIVE cycle
ends in its turn. -/
theorem State.endServiceCycle_settles (hi : ∀ e, s.engine e = .idle) :
    (s.sched.mode = .service → s.workRemains = false →
        State.finishCycles 2 s.endServiceCycle = (s.setCycle none).changeMode .stopped .workDone)
      ∧ (s.sched.mode = .service → s.WorkKept → s.workRemains = true →
        (s.setCycle none).StartsCycle (State.finishCycles 2 s.endServiceCycle) .service)
      ∧ (s.sched.mode = .active →
        (s.setCycle none).RunsCycle (State.finishCycles 2 s.endServiceCycle))
      ∧ (s.sched.mode = .doze →
        State.finishCycles 2 s.endServiceCycle = (s.setCycle none).restartDozePeriod) := by
  obtain ⟨service, active, doze⟩ := s.endServiceCycle_cases
  have still : ∀ e, (s.setCycle none).engine e = .idle := hi
  refine ⟨fun hm hw => ?_, fun hm hk hw => ?_, fun hm => ?_, fun hm => ?_⟩
  · rw [service hm, hw]
    exact State.finishCycles_of_not_finished (State.cycleFinished_of_no_cycle rfl) 2
  · have burst : (s.setCycle none).HasBurst .service := hk.hasBurst hw
    have going : ((s.setCycle none).beginCycle .service).cycleFinished = false :=
      Bool.eq_false_iff.2 fun done =>
        ((s.setCycle none).cycleFinished_beginCycle .service still).1 done burst
    rw [service hm, if_pos hw, State.finishCycles_of_not_finished going]
    exact (s.setCycle none).beginCycle_starts .service still
  · have kind : (s.setCycle none).sched.mode.cycleKind = .active := congrArg Mode.cycleKind hm
    rw [active hm, ← kind]
    exact (s.setCycle none).finishCycles_beginCycle still (.inl hm) 1
  · rw [doze hm]
    exact State.finishCycles_of_not_finished (State.cycleFinished_of_no_cycle rfl) 2

/-! ## The end of an ACTIVE or DOZE cycle -/

/-- The quiet judgement has one outcome (R108). -/
theorem State.QuietJudged.unique (h : s.QuietJudged v) (h' : s.QuietJudged w) : v = w := by
  obtain ⟨busy, quiet, expired⟩ := h
  obtain ⟨busy', quiet', expired'⟩ := h'
  by_cases hb : s.busyChannel ∨ s.table ≠ []
  · rw [busy hb, busy' hb]
  · rw [not_or, not_not] at hb
    obtain ⟨hb, ht⟩ := hb
    by_cases hx : s.sched.inactivity = .expired
    · rw [expired hb ht hx, expired' hb ht hx]
    · rw [quiet hb ht hx, quiet' hb ht hx]

theorem State.counted_abandonBursts (s : State) :
    s.abandonBursts.counted
      = { s.evaluateKeys with
          engines := ⟨.idle, .idle, .idle, .idle⟩
          sched := { s.sched with cycleCount := s.sched.cycleCount + 1, cycle := none } } := by
  have evaluated : s.abandonBursts.evaluateKeys
      = { s.evaluateKeys with engines := ⟨.idle, .idle, .idle, .idle⟩, sched := s.sched } :=
    s.evaluateKeys_scheduled ⟨.idle, .idle, .idle, .idle⟩ s.sched
  rw [State.counted, evaluated]
  rfl

/-- `v` is `s` at the end of an ACTIVE or DOZE cycle, after the count, the evaluation and, for an ACTIVE cycle
that ends in ACTIVE, the quiet judgement (R92, steps 1 to 3). -/
def State.Judged (s : State) (k : CycleKind) (v : State) : Prop :=
  (k = .active → s.sched.mode = .active → s.counted.QuietJudged v)
    ∧ (k ≠ .active ∨ s.sched.mode ≠ .active → v = s.counted)

theorem State.Judged.unique {k : CycleKind} (h : s.Judged k v) (h' : s.Judged k w) : v = w := by
  by_cases hk : k = .active ∧ s.sched.mode = .active
  · exact (h.1 hk.1 hk.2).unique (h'.1 hk.1 hk.2)
  · rw [Decidable.not_and_iff_not_or_not] at hk
    rw [h.2 hk, h'.2 hk]

/-- The end of an ACTIVE or DOZE cycle settles: a change of mode ends there, a mark starts the next cycle, and
with none a stopped period timer restarts in DOZE (R92, step 4). -/
theorem State.endScanCycle_settles (hc : s.sched.cycle = some cy) (hi : ∀ e, s.engine e = .idle)
    {k : CycleKind} (hv : s.Judged k v) :
    (v.sched.mode ≠ s.sched.mode → State.finishCycles 2 (s.endScanCycle k) = v)
      ∧ (v.sched.mode = s.sched.mode → s.scanningNow → cy.late = true ∨ cy.startOwed = true →
        v.RunsCycle (State.finishCycles 2 (s.endScanCycle k)))
      ∧ (v.sched.mode = s.sched.mode → cy.late = false → cy.startOwed = false →
        State.finishCycles 2 (s.endScanCycle k)
          = if s.sched.mode = .doze ∧ s.sched.periodTimer = none then v.restartDozePeriod else v) := by
  obtain ⟨v', quiet, counted, gone, engines, left, kept⟩ := s.endScanCycle_cases k cy hc
  obtain rfl : v' = v := State.Judged.unique ⟨quiet, counted⟩ hv
  refine ⟨fun hm => ?_, fun hm hs marked => ?_, fun hm late owed => ?_⟩
  · rw [left hm]
    exact State.finishCycles_of_not_finished (State.cycleFinished_of_no_cycle gone) 2
  · have next : (s.isScanning && (cy.late || cy.startOwed)) = true := by
      rw [s.isScanning_iff.2 hs, Bool.true_and, Bool.or_eq_true]
      exact marked
    rw [kept hm, if_pos next, ← hm]
    refine v'.finishCycles_beginCycle (fun e => ?_) (hs.of_mode hm) 1
    rw [State.engine, engines]
    exact hi e
  · rw [kept hm, late, owed, Bool.or_self, Bool.and_false, if_neg Bool.false_ne_true]
    refine State.finishCycles_of_not_finished (State.cycleFinished_of_no_cycle ?_) 2
    split <;> exact gone

end Sys2Proof.Machine

namespace Sys2Proof

open Machine

/-- Settles O47: the last burst leaves the engines IDLE, and the end settles by the kind of the cycle. -/
theorem cycleEndsByItsKind : Obligations.CycleEndsByItsKind := by
  intro s e r timer counter c1 cycles cy he hp hg hc hl ho freed counted work
  have run : exec (.burstComplete e cycles) s
      = .next (State.finishCycles 2 s.abandonBursts.endCycle) := by
    rw [exec_burstComplete he, State.deliver_discarded _ hp hg, State.engineFree_last hc hl ho]
  have still : ∀ e, s.abandonBursts.engine e = .idle := fun e => by cases e <;> rfl
  have remains : s.abandonBursts.workRemains = true ↔ work := s.abandonBursts.workRemains_iff
  rw [run]
  refine ⟨fun hk => ?_, fun hk v quiet other => ?_⟩
  · rw [State.endCycle_service (s := s.abandonBursts) hc hk]
    obtain ⟨idle, service, active, doze⟩ := State.endServiceCycle_settles still
    refine ⟨fun hm hw => ?_, fun hm kept hw => ?_, fun hm => ?_, fun hm => ?_⟩
    · rw [idle hm (Bool.eq_false_iff.2 (mt remains.1 hw))]
      rfl
    · exact ⟨_, service hm (kept.of_blocks rfl rfl rfl) (remains.2 hw), rfl⟩
    · exact ⟨_, active hm, rfl⟩
    · rw [doze hm]
      rfl
  · rw [State.endCycle_scan (s := s.abandonBursts) hc hk]
    have same : s.abandonBursts.counted = counted := s.counted_abandonBursts
    obtain ⟨left, marked, unmarked⟩ := State.endScanCycle_settles (s := s.abandonBursts) hc still
      (k := cy.kind) (v := v) ⟨fun ha hm => same ▸ quiet ha hm, fun h => same ▸ other h⟩
    exact ⟨fun hm => congrArg _ (left hm), fun hm hs mark => ⟨_, marked hm hs mark, rfl⟩,
      fun hm late owed => congrArg _ (unmarked hm late owed)⟩

end Sys2Proof
end

section
/-! SET_MODE: what it refuses and keeps (O18), and what it changes into and between the scanning modes
(O19). -/

namespace Sys2Proof.Machine

section
variable {s : State} {i : SlotId} {f : Frame} {b : Byte} {m : Mode}

/-! ## The request -/

theorem exec_setMode (h : s.Takes 0x2A i f) :
    exec .setMode s = .next ((s.afterTake i).doSetMode f) :=
  congrArg _ (State.takeRequest_of_takes h rfl)

theorem targetOf_eq_none {n : Nat} (h0 : n ≠ 0) (h2 : n ≠ 2) (h3 : n ≠ 3) : targetOf n = none := by
  unfold targetOf
  split
  · exact absurd rfl h0
  · exact absurd rfl h2
  · exact absurd rfl h3
  · rfl

/-- Every mode but SERVICE can be named (R178). -/
theorem targetOf_code (h : m ≠ .service) : targetOf m.code.toNat = some m := by
  cases m with
  | service => exact absurd rfl h
  | stopped | active | doze => rfl

/-- A target that is SERVICE or no mode is RANGE (R102, R178). -/
theorem State.doSetMode_range (hp : f.payload = [b]) (h0 : b ≠ 0) (h2 : b ≠ 2) (h3 : b ≠ 3) :
    s.doSetMode f = s.afterReply f.tag .range := by
  have unnamed : targetOf b.toNat = none :=
    targetOf_eq_none (mt (BitVec.eq_of_toNat_eq (y := 0)) h0)
      (mt (BitVec.eq_of_toNat_eq (y := 2)) h2) (mt (BitVec.eq_of_toNat_eq (y := 3)) h3)
  have read : parseTarget [b] = .error .range := by simp [parseTarget, byteAt, unnamed]
  unfold State.doSetMode
  rw [hp, read, State.perform_error]

theorem parseTarget_code (h : m ≠ .service) : parseTarget [m.code] = .ok m := by
  simp [parseTarget, byteAt, targetOf_code h]

/-- DOZE is refused in SERVICE (R102). -/
theorem State.doSetMode_state (hp : f.payload = [Mode.doze.code]) (hs : s.sched.mode = .service) :
    s.doSetMode f = s.afterReply f.tag .state := by
  unfold State.doSetMode
  rw [hp, parseTarget_code (by decide)]
  exact State.perform_of_failed (by simp [hs])

/-- Any other named target is taken, and the change it makes is answered OK (R102, R178). -/
theorem State.doSetMode_taken (hp : f.payload = [m.code]) (hm : m ≠ .service)
    (hs : m = .doze → s.sched.mode ≠ .service) :
    s.doSetMode f = (s.setMode m).afterReply f.tag .ok := by
  unfold State.doSetMode
  rw [hp, parseTarget_code hm]
  exact State.perform_of_passed (by simpa using hs)

/-- The changes of mode into and between ACTIVE and DOZE (R102). -/
theorem State.setMode_scanning (s : State) :
    (s.sched.mode = .stopped ∨ s.sched.mode = .service → s.setMode .active = s.startActive)
      ∧ (s.sched.mode = .stopped → s.setMode .doze = s.startDoze)
      ∧ (s.sched.mode = .active → s.setMode .doze = s.activeToDoze .request)
      ∧ (s.sched.mode = .doze → s.setMode .active = s.dozeToActive .request) := by
  unfold State.setMode
  refine ⟨fun h => ?_, fun h => ?_, fun h => ?_, fun h => ?_⟩
  · rcases h with h | h <;> rw [h]
  all_goals rw [h]

/-- The stop from any other mode (R102). -/
theorem State.setMode_stopped (hm : s.sched.mode ≠ .stopped) : s.setMode .stopped = s.stopPart := by
  unfold State.setMode
  cases h : s.sched.mode with
  | stopped => exact absurd h hm
  | service | active | doze => rfl

/-- The mode in force as the target changes nothing (R102). -/
theorem State.setMode_self (hm : s.sched.mode = m) : s.setMode m = s := by
  unfold State.setMode
  rw [hm]
  cases m <;> rfl

end

/-! ## The start of scanning -/

/-- The part right after a change from STOPPED or SERVICE into ACTIVE, before a cycle starts or is owed
(R104). -/
def State.activeStarted (s : State) : State :=
  { s.scanningStarted .active with
    sched :=
      { (s.scanningStarted .active).sched with inactivity := s.sched.idleStart, quiet := false } }

/-- The part right after a change from STOPPED into DOZE, before an automatic job is signalled (R104). -/
def State.dozeStarted (s : State) : State :=
  { s.scanningStarted .doze with
    sched := { (s.scanningStarted .doze).sched with periodTimer := some s.sched.dozePeriod } }

theorem State.activeStarted_sched (s : State) :
    s.activeStarted.sched
      = { s.sched with mode := .active, inactivity := s.sched.idleStart, quiet := false } := by
  unfold State.activeStarted
  rw [State.scanningStarted_sched]

theorem State.activeStarted_engine (s : State) (e : EngineId) :
    s.activeStarted.engine e = s.engine e := by
  unfold State.activeStarted State.engine
  rw [State.scanningStarted_engines]

theorem State.dozeStarted_sched (s : State) :
    s.dozeStarted.sched
      = { s.sched with mode := .doze, periodTimer := some s.sched.dozePeriod } := by
  unfold State.dozeStarted
  rw [State.scanningStarted_sched]

section
variable {s : State} {cy : Cycle}

theorem State.startActive_eq (s : State) :
    s.startActive
      = if s.sched.cycle.isSome then s.activeStarted.oweStart
        else s.activeStarted.startCycle .active := by
  have entered : ((s.scanningStarted .active).startInactivity).setQuiet false = s.activeStarted := by
    have idle : (s.scanningStarted .active).sched.idleStart = s.sched.idleStart := by
      rw [State.scanningStarted_sched, Scheduler.idleStart, Scheduler.idleStart]
    unfold State.activeStarted
    rw [← idle]
    generalize s.scanningStarted .active = u
    rfl
  have started := s.scanningStarted_eq .active
  unfold State.startActive
  dsimp only [State.reseeded] at started ⊢
  rw [started, entered]

theorem State.startDoze_eq (s : State) :
    s.startDoze = if s.dueAtStart = [] then s.dozeStarted else s.dozeStarted.workSignal := by
  have entered : (s.scanningStarted .doze).restartDozePeriod = s.dozeStarted := by
    have period : (s.scanningStarted .doze).sched.dozePeriod = s.sched.dozePeriod := by
      rw [State.scanningStarted_sched]
    unfold State.dozeStarted
    rw [← period]
    generalize s.scanningStarted .doze = u
    rfl
  have started := s.scanningStarted_eq .doze
  have due := s.autoJobChannels_reseeded .doze
  unfold State.startDoze
  dsimp only [State.reseeded] at started due ⊢
  rw [started, entered, due]
  exact if_congr List.isEmpty_iff rfl rfl

/-- A SERVICE cycle in flight is owed a start (R104). -/
theorem State.startActive_within (hc : s.sched.cycle = some cy) :
    s.startActive
      = { s.activeStarted with
          sched := { s.activeStarted.sched with cycle := some { cy with startOwed := true } } } := by
  have same : s.activeStarted.sched.cycle = some cy := by rw [State.activeStarted_sched, hc]
  rw [State.startActive_eq, hc, Option.isSome_some, if_pos rfl]
  unfold State.oweStart State.setCycle State.withSched
  rw [same, Option.map_some]

/-- With no cycle in flight the first ACTIVE cycle starts at once (R104). -/
theorem State.startActive_between (hc : s.sched.cycle = none) (hi : ∀ e, s.engine e = .idle) :
    s.activeStarted.RunsCycle s.startActive := by
  have mode : s.activeStarted.sched.mode.cycleKind = .active := by
    rw [State.activeStarted_sched, Mode.cycleKind]
  rw [State.startActive_eq, hc, ← mode]
  exact s.activeStarted.startCycle_runs fun e => (s.activeStarted_engine e).trans (hi e)

/-- An automatic job created at the start of DOZE is work (R104, R107). -/
theorem State.startDoze_due (hd : s.dueAtStart ≠ []) : s.dozeStarted.LeavesDoze s.startDoze .work := by
  rw [State.startDoze_eq, if_neg hd]
  exact s.dozeStarted.workSignal_signals.1 (by rw [State.dozeStarted_sched])

/-! ## Between ACTIVE and DOZE -/

/-- Within a cycle the change from ACTIVE to DOZE stops the period timer and clears the marks (R105). -/
theorem State.activeToDoze_within (hc : s.sched.cycle = some cy) (cause : ModeCause) :
    s.activeToDoze cause
      = { s with
          sched :=
            { s.sched with
              mode := .doze, inactivity := .stopped, quiet := false, periodTimer := none
              cycle := some { cy with late := false, startOwed := false } }
          queue := s.queue.offer s.table.length (.mode .doze cause) } := by
  have branch : s.activeToDoze cause = ((s.leaveActive cause).setPeriod none).clearMarks :=
    if_pos (by simp [hc])
  have same : ((s.leaveActive cause).setPeriod none).sched.cycle = some cy := hc
  rw [branch, State.clearMarks, same, Option.map_some]
  rfl

end

end Sys2Proof.Machine

namespace Sys2Proof

open Machine

/-- Settles O18: the two refusals, and the mode in force. -/
theorem setModeRefusesOrKeeps : Obligations.SetModeRefusesOrKeeps := by
  intro s i f b ht hp
  rw [exec_setMode ht]
  refine ⟨fun h0 h2 h3 => ?_, fun hb hs => ?_, fun hb hs => ?_⟩
  · rw [State.doSetMode_range hp h0 h2 h3]
  · subst hb
    rw [State.doSetMode_state (s := s.afterTake i) hp hs]
  · subst hb
    have kept : (s.afterTake i).setMode s.sched.mode = s.afterTake i := State.setMode_self rfl
    rw [State.doSetMode_taken (s := s.afterTake i) hp hs fun _ => hs, kept]

/-- Settles O19: each change of R102 into or between ACTIVE and DOZE, by the cycle in flight. -/
theorem setModeMakesItsChange : Obligations.SetModeMakesItsChange := by
  intro s i f ht active into doze dozing
  have taken : ∀ {m : Mode}, f.payload = [m.code] → m ≠ .service →
      (m = .doze → s.sched.mode ≠ .service) →
      exec .setMode s = .next (((s.afterTake i).setMode m).afterReply f.tag .ok) := by
    intro m hp hm hs
    rw [exec_setMode ht, State.doSetMode_taken (s := s.afterTake i) hp hm hs]
  obtain ⟨starts, dozes, leaves, wakes⟩ := (s.afterTake i).setMode_scanning
  refine ⟨fun hp hm => ?_, fun hp hm => ?_, fun hp hm hc => ?_, fun cy hp hm hc => ?_, fun hp hm => ?_⟩
  · have run := taken (m := .active) hp (by decide) (fun h => nomatch h)
    rw [starts hm] at run
    refine ⟨fun cy hc => ?_, fun hc hi =>
      ⟨_, State.startActive_between (s := s.afterTake i) hc hi, run⟩⟩
    rw [run, State.startActive_within (s := s.afterTake i) hc]
    rfl
  · have run := taken (m := .doze) hp (by decide) (by simp [hm])
    rw [dozes hm] at run
    refine ⟨fun hd => ?_, fun hd => ⟨_, State.startDoze_due (s := s.afterTake i) hd, run⟩⟩
    rw [run, State.startDoze_eq, if_pos (show (s.afterTake i).dueAtStart = [] from hd)]
    rfl
  · rw [taken (m := .doze) hp (by decide) (by simp [hm]), leaves hm,
      State.activeToDoze_between (s := s.afterTake i) hc]
    rfl
  · rw [taken (m := .doze) hp (by decide) (by simp [hm]), leaves hm,
      State.activeToDoze_within (s := s.afterTake i) hc]
    rfl
  · have run := taken (m := .active) hp (by decide) (fun h => nomatch h)
    rw [wakes hm] at run
    exact ⟨_, State.dozeToActive_leaves _ .request, run⟩

end Sys2Proof
end

section
/-! The stop of SET_MODE STOPPED (O20): what it posts in its order, what it leaves of the records, the jobs
and the table, and the bursts that complete in its instant. -/

namespace Sys2Proof.Machine

/-! ## What an entry's posting does to the queue and the room -/

/-- The queue, and the number of pending entries that it shares its room with (R134). -/
def State.posting (s : State) : Queue × Nat := (s.queue, s.table.length)

theorem State.posting_of_same {s t : State} (hq : t.queue = s.queue) (ht : t.table = s.table) :
    t.posting = s.posting :=
  Prod.ext hq (congrArg List.length ht)

theorem Queue.receive_event {b : Body} (hb : b.isEvent = true) (x : Queue × Nat) :
    Queue.receive x b = (x.1.offer x.2 b, x.2) := by
  cases b with
  | complete => cases hb
  | _ => rfl

theorem State.posting_post (s : State) {b : Body} (hb : b.isEvent = true) :
    (s.post b).posting = Queue.receive s.posting b :=
  (Queue.receive_event hb s.posting).symm

theorem State.posting_postAll (s : State) {bs : List Body} (hb : ∀ b ∈ bs, b.isEvent = true) :
    (s.postAll bs).posting = bs.foldl Queue.receive s.posting := by
  induction bs generalizing s with
  | nil => rfl
  | cons b rest ih =>
    rw [List.foldl_cons, ← s.posting_post (hb b List.mem_cons_self)]
    exact ih (s.post b) fun b' h => hb b' (List.mem_cons_of_mem b h)

/-- A completed entry leaves the table, and its COMPLETE takes its place in the room (R136, R169). -/
theorem State.posting_completeEntry {s : State} {e : PendingEntry} (he : e ∈ s.table)
    (status : Status) :
    (s.completeEntry e status).posting
      = Queue.receive s.posting (.complete e.tag status e.work) :=
  Prod.ext rfl (List.length_erase_of_mem he)

/-! ## What the end of the jobs posts -/

/-- The channel has a running job of the request with a tag. -/
def State.runsFor (s : State) (tag : Byte) (c : ChannelNo) : Bool :=
  match s.job c with
  | some j => j.origin == .request tag
  | none => false

/-- The result of a job that a stop has ended (R80). -/
def State.abortedResult (s : State) (c : ChannelNo) : CalResult :=
  { channel := c, outcome := .aborted, window := (s.chan c).config.windowCode }

/-- The COMPLETE that an entry of the table comes to, if it is the CALIBRATE with a tag, when the jobs of
some channels have ended ABORTED (R80). -/
def State.abortedEntry (s : State) (tag : Byte) (running : List ChannelNo) (e : PendingEntry) :
    Option Body :=
  match e.work with
  | .calibrate subjects results =>
    if e.tag = tag then
      some (.complete tag .aborted (.calibrate subjects (results ++ running.map s.abortedResult)))
    else none
  | .measure _ _ _ _ => none

/-- What the end of one channel's job posts in a stop that ends the jobs of the channels `cs`, this one
among them (R80, R110). -/
def State.jobPosts (s : State) (cs : List ChannelNo) (c : ChannelNo) : List Body :=
  match s.job c with
  | none => []
  | some j =>
    match j.origin with
    | .automatic => [.recal c (.autoCal .aborted (s.chan c).config.windowCode)]
    | .request tag =>
      if (cs.filter (s.runsFor tag)).getLast? = some c then
        s.table.filterMap (s.abortedEntry tag (cs.filter (s.runsFor tag)))
      else []

/-- The COMPLETE of a MEASURE entry (R110). -/
def PendingEntry.abortedMeasure (e : PendingEntry) : Option Body :=
  match e.work with
  | .calibrate _ _ => none
  | .measure _ _ _ _ => some (.complete e.tag .aborted e.work)

/-- The RELEASE of a PRESSED key (R127). -/
def State.stopRelease (s : State) (k : KeyNo) : Option Body :=
  match s.key k with
  | some r => if r.state = .pressed then some (.release k .stopped) else none
  | none => none

theorem State.stopPosts_eq (s : State) :
    s.stopPosts
      = allChannels.flatMap (s.jobPosts allChannels)
        ++ s.table.filterMap PendingEntry.abortedMeasure
        ++ allKeys.filterMap s.stopRelease ++ [.mode .stopped .request] := rfl

section
variable {s : State} {c d : ChannelNo} {cs rest : List ChannelNo} {j : Job} {tag : Byte}
  {e : PendingEntry}

theorem State.runsFor_iff : s.runsFor tag c = true ↔ s.originOf c = some (.request tag) := by
  unfold State.runsFor State.originOf
  cases s.job c <;> simp

theorem State.jobPosts_none (hj : s.job c = none) : s.jobPosts cs c = [] := by
  unfold State.jobPosts
  rw [hj]

theorem State.jobPosts_automatic (hj : s.job c = some j) (ho : j.origin = .automatic) :
    s.jobPosts cs c = [.recal c (.autoCal .aborted (s.chan c).config.windowCode)] := by
  unfold State.jobPosts
  rw [hj]
  dsimp only
  rw [ho]

theorem State.jobPosts_request (hj : s.job c = some j) (ho : j.origin = .request tag) :
    s.jobPosts cs c
      = if (cs.filter (s.runsFor tag)).getLast? = some c then
          s.table.filterMap (s.abortedEntry tag (cs.filter (s.runsFor tag)))
        else [] := by
  unfold State.jobPosts
  rw [hj]
  dsimp only
  rw [ho]

/-- The one CALIBRATE entry with a tag completes (R168). -/
theorem State.abortedEntries_eq (hn : (s.table.map PendingEntry.tag).Nodup) (he : e ∈ s.table)
    {subjects : List ChannelNo} {results : List CalResult} (hw : e.work = .calibrate subjects results)
    (running : List ChannelNo) :
    s.table.filterMap (s.abortedEntry e.tag running)
      = [.complete e.tag .aborted (.calibrate subjects (results ++ running.map s.abortedResult))] := by
  obtain ⟨before, after, ht⟩ := List.append_of_mem he
  have others : ∀ x : PendingEntry, x.tag ≠ e.tag → s.abortedEntry e.tag running x = none := by
    intro x hx
    unfold State.abortedEntry
    split
    · exact if_neg hx
    · rfl
  have own : s.abortedEntry e.tag running e
      = some
          (.complete e.tag .aborted
            (.calibrate subjects (results ++ running.map s.abortedResult))) := by
    unfold State.abortedEntry
    rw [hw]
    exact if_pos rfl
  have first := fun x hx => others x (not_mem_before (ht ▸ hn) x hx)
  have last : ∀ x ∈ after, s.abortedEntry e.tag running x = none := fun x hx => others x fun h => by
    rw [ht, List.map_append, List.map_cons, List.nodup_append, List.nodup_cons] at hn
    exact hn.2.1.1 (h ▸ List.mem_map_of_mem hx)
  rw [ht, List.filterMap_append, List.filterMap_cons_some own, List.filterMap_eq_nil_iff.2 first,
    List.filterMap_eq_nil_iff.2 last, List.nil_append]

end

/-! ## The stop of one job -/

section
variable {s : State} {c d : ChannelNo} {cs rest : List ChannelNo} {j : Job} {tag : Byte}

theorem State.stopJob_none (hj : s.job c = none) : s.stopJob c = s := by
  unfold State.stopJob
  rw [hj]

theorem State.stopJob_some (hj : s.job c = some j) :
    s.stopJob c
      = (s.endJob c j .aborted (s.chan c).calibrationFails []).closeEntryOf j.origin
          (some .aborted) := by
  unfold State.stopJob State.abortJob
  rw [hj]

/-- The record and the job that the stop of one job leaves (R74, R80). -/
theorem State.stopJob_blocks (s : State) (c : ChannelNo) :
    (s.stopJob c).channels
        = (s.setChan c (if (s.job c).isSome then (s.chan c).calibrationFails else s.chan c)).channels
      ∧ (s.stopJob c).jobs = (s.setJob c none).jobs := by
  cases hj : s.job c with
  | none =>
    rw [State.stopJob_none hj, Option.isSome_none, if_neg Bool.false_ne_true, State.setChan_chan_self,
      ← hj, State.setJob_job_self]
    exact ⟨rfl, rfl⟩
  | some j =>
    obtain ⟨-, hc, hjobs, -⟩ := s.endJob_blocks c j .aborted (s.chan c).calibrationFails []
    rw [State.stopJob_some hj]
    obtain ⟨-, hc', hjobs', -⟩ := State.closeEntryOf_blocks
      (s.endJob c j .aborted (s.chan c).calibrationFails []) j.origin (some .aborted)
    exact ⟨hc'.trans hc, hjobs'.trans hjobs⟩

theorem State.chan_stopJob (s : State) (c : ChannelNo) :
    (s.stopJob c).chan c = if (s.job c).isSome then (s.chan c).calibrationFails else s.chan c := by
  rw [State.chan, (s.stopJob_blocks c).1]
  exact s.chan_setChan_self c _

theorem State.chan_stopJob_ne (s : State) (h : d ≠ c) : (s.stopJob c).chan d = s.chan d := by
  rw [State.chan, (s.stopJob_blocks c).1]
  exact s.chan_setChan_ne _ h

theorem State.job_stopJob (s : State) (c : ChannelNo) : (s.stopJob c).job c = none := by
  rw [State.job, (s.stopJob_blocks c).2]
  exact s.job_setJob_self c none

theorem State.job_stopJob_ne (s : State) (h : d ≠ c) : (s.stopJob c).job d = s.job d := by
  rw [State.job, (s.stopJob_blocks c).2]
  exact s.job_setJob_ne none h

theorem State.runsFor_stopJob_ne (s : State) (tag : Byte) (h : d ≠ c) :
    (s.stopJob c).runsFor tag d = s.runsFor tag d := by
  unfold State.runsFor
  rw [s.job_stopJob_ne h]

/-- The stop of one job leaves the part outside its blocks (R80). -/
theorem State.stopJob_sameOutside (s : State) (c : ChannelNo) : s.SameOutside (s.stopJob c) := by
  unfold State.stopJob State.abortJob
  split
  · exact (State.endJob_sameOutside _ _ _ _ _ _).trans (State.closeEntryOf_sameOutside _ _ _)
  · exact .refl s

theorem State.WorkKept.stopJob (h : s.WorkKept) (c : ChannelNo) : (s.stopJob c).WorkKept :=
  h.moves (.stopJob s c)

/-- The stop of an automatic job posts its RECAL event (R78, R80). -/
theorem State.stopJob_automatic (hj : s.job c = some j) (ho : j.origin = .automatic) :
    s.stopJob c
      = (s.jobEnded c (s.chan c).calibrationFails []).post
          (.recal c (.autoCal .aborted (s.chan c).config.windowCode)) := by
  rw [State.stopJob_some hj, ho, State.endJob_automatic s c ho]
  rfl

/-- A result joins the entry in its place (R77). -/
theorem State.appendResult_between {before after : List PendingEntry} {subjects : List ChannelNo}
    {results : List CalResult} (hn : (s.table.map PendingEntry.tag).Nodup)
    (ht : s.table = before ++ { tag := tag, work := .calibrate subjects results } :: after)
    (y : CalResult) :
    s.appendResult tag y
      = { s with
          table := before ++ { tag := tag, work := .calibrate subjects (results ++ [y]) } :: after } := by
  obtain ⟨entry, replaced⟩ := State.entryOfTag_between hn ht
  unfold State.appendResult
  rw [entry]
  dsimp only
  rw [replaced]

/-- An entry in its place completes once it holds all its results (R77, R80). -/
theorem State.closeEntryOf_between {before after : List PendingEntry} {work : LongWork}
    (hn : (s.table.map PendingEntry.tag).Nodup)
    (ht : s.table = before ++ { tag := tag, work := work } :: after) (status : Status) :
    s.closeEntryOf (.request tag) (some status)
      = if work.hasAllResults then
          { s.afterAdmit (.complete tag status work) with table := before ++ after }
        else s := by
  obtain ⟨entry, -⟩ := State.entryOfTag_between hn ht
  unfold State.closeEntryOf State.completeEntry
  dsimp only at entry ⊢
  rw [entry]
  dsimp only
  rw [ht] at hn ⊢
  rw [table_erase hn]
  rfl

/-- The stop of a request's job gives its entry a result, and completes the entry ABORTED unless another of
its jobs runs (R77, R80). -/
theorem State.WorkKept.stopJob_request (h : s.WorkKept) (hj : s.job c = some j)
    (ho : j.origin = .request tag) :
    ∃ before after subjects results,
      s.table = before ++ { tag := tag, work := .calibrate subjects results } :: after
      ∧ let work := LongWork.calibrate subjects (results ++ [s.abortedResult c])
        ((∀ d, d ≠ c → s.runsFor tag d = false) →
          (s.stopJob c).posting = Queue.receive s.posting (.complete tag .aborted work)
            ∧ (s.stopJob c).table = before ++ after)
        ∧ (∀ d, d ≠ c → s.runsFor tag d = true →
          (s.stopJob c).posting = s.posting
            ∧ (s.stopJob c).table = before ++ { tag := tag, work := work } :: after) := by
  have served := h.jobsServed.served
  obtain ⟨⟨own, _⟩, he, rfl, lacked⟩ := (served.jobs c tag).1 (State.originOf_eq_some.2 ⟨j, hj, ho⟩)
  obtain ⟨subjects, results, rfl, -⟩ := LongWork.lacks_iff.1 lacked
  obtain ⟨before, after, ht⟩ := List.append_of_mem he
  refine ⟨before, after, subjects, results, ht, ?_⟩
  dsimp only at ho ⊢
  have stopped := State.stopJob_some hj
  have tags := served.tags
  rw [ht, List.map_append, List.map_cons] at tags
  rw [ho, State.endJob_request s c ho,
    State.appendResult_between (s := s.jobEnded c _ []) served.tags ht,
    State.closeEntryOf_between (by rwa [List.map_append, List.map_cons]) rfl] at stopped
  have runs : ∀ d, s.runsFor own d = true ↔ d ∈ subjects ∧ d ∉ results.map CalResult.channel :=
    fun d => State.runsFor_iff.trans (served.origin_iff he)
  have all : (LongWork.calibrate subjects (results ++ [s.abortedResult c])).hasAllResults = true
      ↔ ∀ d, d ≠ c → s.runsFor own d = false := by
    rw [LongWork.hasAllResults_calibrate]
    simp only [← Bool.not_eq_true, runs, List.map_append, List.map_cons, List.map_nil, List.mem_append,
      List.mem_singleton]
    exact forall_congr' fun d => by tauto
  refine ⟨fun alone => ?_, fun d hd hr => ?_⟩
  · rw [stopped.trans (if_pos (all.2 alone))]
    exact ⟨Prod.ext rfl (by simp [State.posting, Queue.receive, ht]), rfl⟩
  · have more : ¬ (LongWork.calibrate subjects (results ++ [s.abortedResult c])).hasAllResults = true :=
      fun hall => Bool.false_ne_true ((all.1 hall d hd).symm.trans hr)
    rw [stopped.trans (if_neg more)]
    exact ⟨Prod.ext rfl (by simp [State.posting, ht]), rfl⟩

/-- The table that the stop of a job leaves: as it was, or with an entry of its request completed or given its
result (R77, R80). -/
theorem State.WorkKept.stopJob_table (h : s.WorkKept) (c : ChannelNo) :
    (s.stopJob c).table = s.table
      ∨ ∃ before after tag subjects results, s.runsFor tag c = true
        ∧ s.table = before ++ { tag := tag, work := .calibrate subjects results } :: after
        ∧ ((s.stopJob c).table = before ++ after
          ∨ (s.stopJob c).table
            = before ++
              { tag := tag, work := .calibrate subjects (results ++ [s.abortedResult c]) } :: after) := by
  cases hj : s.job c with
  | none => exact .inl (by rw [State.stopJob_none hj])
  | some j =>
    cases ho : j.origin with
    | automatic => exact .inl (by rw [State.stopJob_automatic hj ho]; rfl)
    | request tag =>
      obtain ⟨before, after, subjects, results, ht, last, going⟩ := h.stopJob_request hj ho
      have own := State.runsFor_iff.2 (State.originOf_eq_some.2 ⟨j, hj, ho⟩)
      refine .inr ⟨before, after, tag, subjects, results, own, ht, ?_⟩
      by_cases other : ∃ d, d ≠ c ∧ s.runsFor tag d = true
      · obtain ⟨d, hd, hr⟩ := other
        exact .inr (going d hd hr).2
      · exact .inl (last fun d hd => Bool.eq_false_iff.2 fun hr => other ⟨d, hd, hr⟩).2

/-- The stop of a job leaves the MEASURE entries (R80). -/
theorem State.WorkKept.stopJob_measures (h : s.WorkKept) (c : ChannelNo) :
    (s.stopJob c).table.filterMap PendingEntry.abortedMeasure
      = s.table.filterMap PendingEntry.abortedMeasure := by
  have skipped : ∀ tag subjects results,
      PendingEntry.abortedMeasure { tag := tag, work := .calibrate subjects results } = none :=
    fun _ _ _ => rfl
  rcases h.stopJob_table c with ht | ⟨before, after, tag, subjects, results, -, ht, ht' | ht'⟩
  · rw [ht]
  · rw [ht, ht', List.filterMap_append, List.filterMap_append, List.filterMap_cons_none (skipped _ _ _)]
  · rw [ht, ht', List.filterMap_append, List.filterMap_append, List.filterMap_cons_none (skipped _ _ _),
      List.filterMap_cons_none (skipped _ _ _)]

/-- The stop of a job leaves the entries of other requests (R80). -/
theorem State.WorkKept.mem_stopJob (h : s.WorkKept) {e : PendingEntry} (he : e ∈ s.table)
    (hr : s.runsFor e.tag c = false) : e ∈ (s.stopJob c).table := by
  rcases h.stopJob_table c with ht | ⟨before, after, tag, subjects, results, own, ht, ht'⟩
  · rwa [ht]
  · have kept : e ∈ before ∨ e ∈ after := by
      rw [ht, List.mem_append, List.mem_cons] at he
      rcases he with he | rfl | he
      · exact .inl he
      · rw [own] at hr
        cases hr
      · exact .inr he
    rcases ht' with ht' | ht' <;> rw [ht', List.mem_append]
    · exact kept
    · exact kept.imp_right (List.mem_cons_of_mem _)

/-! ## The stop of every job -/

/-- What the stop of the first of several jobs posts. -/
theorem State.WorkKept.posting_stopJob (h : s.WorkKept) (hc : c ∉ rest)
    (all : ∀ d, (s.job d).isSome → d ∈ c :: rest) :
    (s.stopJob c).posting = (s.jobPosts (c :: rest) c).foldl Queue.receive s.posting := by
  cases hj : s.job c with
  | none => rw [State.stopJob_none hj, State.jobPosts_none hj, List.foldl_nil]
  | some j =>
    cases ho : j.origin with
    | automatic =>
      rw [State.stopJob_automatic hj ho, State.jobPosts_automatic hj ho]
      exact State.posting_post _ rfl
    | request tag =>
      obtain ⟨before, after, subjects, results, ht, last, going⟩ := h.stopJob_request hj ho
      have own : s.runsFor tag c = true :=
        State.runsFor_iff.2 (State.originOf_eq_some.2 ⟨j, hj, ho⟩)
      rw [State.jobPosts_request hj ho, List.filter_cons_of_pos own]
      cases running : rest.filter (s.runsFor tag) with
      | nil =>
        have alone : ∀ d, d ≠ c → s.runsFor tag d = false := fun d hd => by
          refine Bool.eq_false_iff.2 fun hr => ?_
          obtain ⟨j', hj', -⟩ := State.originOf_eq_some.1 (State.runsFor_iff.1 hr)
          have hm := (List.mem_cons.1 (all d (by rw [hj']; rfl))).resolve_left hd
          exact List.filter_eq_nil_iff.1 running d hm hr
        have entry : { tag := tag, work := .calibrate subjects results } ∈ s.table := by simp [ht]
        have posts := State.abortedEntries_eq h.jobsServed.served.tags entry rfl [c]
        rw [(last alone).1, if_pos List.getLast?_singleton, posts]
        rfl
      | cons d more =>
        obtain ⟨hd, hr⟩ := List.mem_filter.1 (running ▸ List.mem_cons_self : d ∈ rest.filter _)
        have other : (c :: d :: more).getLast? ≠ some c := fun hlast => by
          rw [List.getLast?_cons_cons, ← running] at hlast
          exact hc (List.mem_filter.1 (List.mem_of_getLast? hlast)).1
        rw [(going d (fun he => hc (he ▸ hd)) hr).1, if_neg other, List.foldl_nil]

/-- The entry of a request's running job, before and after the stop of another channel's job: the results
that it holds, with those that its running jobs will give, are the same. -/
theorem State.WorkKept.entry_stopJob (h : s.WorkKept) (hdc : d ≠ c) (hr : s.runsFor tag d = true)
    (rest : List ChannelNo) :
    ∃ subjects results results',
      { tag := tag, work := .calibrate subjects results } ∈ s.table
      ∧ { tag := tag, work := .calibrate subjects results' } ∈ (s.stopJob c).table
      ∧ results ++ ((c :: rest).filter (s.runsFor tag)).map s.abortedResult
          = results' ++ (rest.filter (s.runsFor tag)).map s.abortedResult := by
  by_cases own : s.runsFor tag c = true
  · obtain ⟨j, hj, ho⟩ := State.originOf_eq_some.1 (State.runsFor_iff.1 own)
    obtain ⟨before, after, subjects, results, ht, -, going⟩ := h.stopJob_request hj ho
    refine ⟨subjects, results, results ++ [s.abortedResult c], by simp [ht],
      by simp [(going d hdc hr).2], ?_⟩
    rw [List.filter_cons_of_pos own, List.map_cons, List.append_assoc, List.singleton_append]
  · obtain ⟨⟨_, _⟩, he, rfl, lacked⟩ := (h.jobsServed.served.jobs d tag).1 (State.runsFor_iff.1 hr)
    obtain ⟨subjects, results, rfl, -⟩ := LongWork.lacks_iff.1 lacked
    rw [List.filter_cons_of_neg own]
    exact ⟨subjects, results, results, he, h.mem_stopJob he (Bool.eq_false_iff.2 own), rfl⟩

/-- What the other jobs post once the first of them has stopped. -/
theorem State.WorkKept.jobPosts_stopJob (h : s.WorkKept) (hc : c ∉ rest) (hd : d ∈ rest) :
    (s.stopJob c).jobPosts rest d = s.jobPosts (c :: rest) d := by
  have behind : ∀ x ∈ rest, x ≠ c := fun x hx he => hc (he ▸ hx)
  have job := s.job_stopJob_ne (behind d hd)
  cases hj : s.job d with
  | none => rw [State.jobPosts_none hj, State.jobPosts_none (job.trans hj)]
  | some j =>
    cases ho : j.origin with
    | automatic =>
      rw [State.jobPosts_automatic hj ho, State.jobPosts_automatic (job.trans hj) ho,
        s.chan_stopJob_ne (behind d hd)]
    | request tag =>
      have hr : s.runsFor tag d = true := State.runsFor_iff.2 (State.originOf_eq_some.2 ⟨j, hj, ho⟩)
      obtain ⟨subjects, results, results', entry, entry', same⟩ :=
        h.entry_stopJob (behind d hd) hr rest
      have running : rest.filter ((s.stopJob c).runsFor tag) = rest.filter (s.runsFor tag) :=
        List.filter_congr fun x hx => s.runsFor_stopJob_ne tag (behind x hx)
      have given : (rest.filter (s.runsFor tag)).map (s.stopJob c).abortedResult
          = (rest.filter (s.runsFor tag)).map s.abortedResult :=
        List.map_congr_left fun x hx => by
          rw [State.abortedResult, s.chan_stopJob_ne (behind x (List.mem_filter.1 hx).1),
            ← State.abortedResult]
      have last : ((c :: rest).filter (s.runsFor tag)).getLast?
          = (rest.filter (s.runsFor tag)).getLast? := by
        obtain ⟨x, more, hx⟩ := List.exists_cons_of_ne_nil
          (List.ne_nil_of_mem (List.mem_filter.2 ⟨hd, hr⟩))
        rw [List.filter_cons, hx]
        split
        · rw [List.getLast?_cons_cons]
        · rfl
      rw [State.jobPosts_request hj ho, State.jobPosts_request (job.trans hj) ho, running, last,
        State.abortedEntries_eq h.jobsServed.served.tags entry rfl,
        State.abortedEntries_eq (h.stopJob c).jobsServed.served.tags entry' rfl, given]
      dsimp only
      rw [same]

/-- What the stop of every job posts, in the order of the channels (R80). -/
theorem State.WorkKept.posting_stopJobs (h : s.WorkKept) (hn : cs.Nodup)
    (all : ∀ d, (s.job d).isSome → d ∈ cs) :
    (cs.foldl State.stopJob s).posting = (cs.flatMap (s.jobPosts cs)).foldl Queue.receive s.posting := by
  induction cs generalizing s with
  | nil => rfl
  | cons c rest ih =>
    obtain ⟨hc, hr⟩ := List.nodup_cons.1 hn
    have others : ∀ d, ((s.stopJob c).job d).isSome → d ∈ rest := fun d hd => by
      by_cases he : d = c
      · rw [he, State.job_stopJob] at hd
        cases hd
      · rw [s.job_stopJob_ne he] at hd
        exact (List.mem_cons.1 (all d hd)).resolve_left he
    have later : rest.flatMap (s.jobPosts (c :: rest)) = rest.flatMap ((s.stopJob c).jobPosts rest) :=
      List.flatMap_congr fun d hd => (h.jobPosts_stopJob hc hd).symm
    rw [List.foldl_cons, ih (h.stopJob c) hr others, h.posting_stopJob hc all, List.flatMap_cons,
      List.foldl_append, later]

theorem State.WorkKept.measures_stopJobs (h : s.WorkKept) (cs : List ChannelNo) :
    (cs.foldl State.stopJob s).table.filterMap PendingEntry.abortedMeasure
      = s.table.filterMap PendingEntry.abortedMeasure := by
  induction cs generalizing s with
  | nil => rfl
  | cons c rest ih => exact (ih (h.stopJob c)).trans (h.stopJob_measures c)

theorem State.stopJobs_sameOutside (s : State) (cs : List ChannelNo) :
    s.SameOutside (cs.foldl State.stopJob s) := by
  induction cs generalizing s with
  | nil => exact .refl s
  | cons c rest ih => exact (s.stopJob_sameOutside c).trans (ih _)

/-- The records and the jobs that the stop of several jobs leaves (R74, R80). -/
theorem State.stopJobs_each (s : State) (hn : cs.Nodup) (d : ChannelNo) :
    (cs.foldl State.stopJob s).job d = (if d ∈ cs then none else s.job d)
      ∧ (cs.foldl State.stopJob s).chan d
        = if d ∈ cs ∧ (s.job d).isSome then (s.chan d).calibrationFails else s.chan d := by
  induction cs generalizing s with
  | nil => simp
  | cons c rest ih =>
    obtain ⟨hc, hr⟩ := List.nodup_cons.1 hn
    obtain ⟨job, chan⟩ := ih (s.stopJob c) hr
    rw [List.foldl_cons, job, chan]
    by_cases he : d = c
    · subst he
      rw [State.job_stopJob, State.chan_stopJob]
      simp [hc]
    · rw [s.job_stopJob_ne he, s.chan_stopJob_ne he]
      simp [he]

end

/-! ## The MEASURE entries, the channels and the keys -/

section
variable {s : State}

/-- The COMPLETEs of the entries of a table that holds MEASURE entries alone, oldest first, empty it
(R110). -/
theorem State.completeAll_empties {l : List PendingEntry} (hl : s.table = l)
    (hm : ∀ e ∈ l, e.work.measured.isSome = true) :
    (l.foldl (fun s e => s.completeEntry e .aborted) s).table = []
      ∧ (l.foldl (fun s e => s.completeEntry e .aborted) s).posting
        = (l.filterMap PendingEntry.abortedMeasure).foldl Queue.receive s.posting := by
  induction l generalizing s with
  | nil => exact ⟨hl, rfl⟩
  | cons e rest ih =>
    have he : e ∈ s.table := by simp [hl]
    have left : (s.completeEntry e .aborted).table = rest := by
      show s.table.erase e = rest
      rw [hl, List.erase_cons_head]
    have post : e.abortedMeasure = some (.complete e.tag .aborted e.work) := by
      have := hm e List.mem_cons_self
      unfold PendingEntry.abortedMeasure
      cases hw : e.work with
      | calibrate => rw [hw] at this; cases this
      | measure => rfl
    obtain ⟨empty, posted⟩ := ih left fun x hx => hm x (List.mem_cons_of_mem e hx)
    refine ⟨empty, ?_⟩
    rw [List.foldl_cons, posted, State.posting_completeEntry he, List.filterMap_cons_some post,
      List.foldl_cons]

theorem State.completeAll_sameOutside (s : State) (l : List PendingEntry) (status : Status) :
    s.SameOutside (l.foldl (fun s e => s.completeEntry e status) s)
      ∧ (l.foldl (fun s e => s.completeEntry e status) s).channels = s.channels
      ∧ (l.foldl (fun s e => s.completeEntry e status) s).jobs = s.jobs := by
  induction l generalizing s with
  | nil => exact ⟨.refl s, rfl, rfl⟩
  | cons e rest ih =>
    obtain ⟨outside, channels, jobs⟩ := ih (s.completeEntry e status)
    exact ⟨.trans (t := s.completeEntry e status) (.refl s) outside, channels, jobs⟩

/-- With no job left, every entry that work keeps is a MEASURE (R77). -/
theorem State.WorkKept.measures_of_no_job (h : s.WorkKept) (hj : ∀ c, s.job c = none) :
    ∀ e ∈ s.table, e.work.measured.isSome = true := by
  intro e he
  refine Option.isSome_iff_ne_none.2 fun hm => ?_
  obtain ⟨c, hl⟩ := h.unfinished e he hm
  have own := (h.jobsServed.served.origin_iff he).2 hl
  rw [State.originOf, hj, Option.map_none] at own
  cases own

/-- The record of a channel that a stop leaves: a calibration ends ABORTED, and a touch ends (R62, R79). -/
def Channel.stopped (ch : Channel) : Channel :=
  match ch.state with
  | .calibrating => ch.calibrationFails
  | .pressing | .touched | .releasing => ch.toIdle
  | .off | .uncal | .idle | .fault => ch

theorem Channel.stopped_eq (ch : Channel) :
    (if ch.state = .calibrating then ch.calibrationFails else ch).stop = ch.stopped := by
  by_cases hc : ch.state = .calibrating
  · rw [if_pos hc, Channel.stopped, hc]
    rfl
  · rw [if_neg hc]
    unfold Channel.stop Channel.stopped
    cases hs : ch.state with
    | calibrating => exact absurd hs hc
    | pressing | touched | releasing => rfl
    | off | uncal | idle | fault => rfl

/-- The stop's parts at the engines, the jobs and the MEASURE entries (R80, R110). -/
def State.aborted (s : State) : State := s.abandonBursts.stopJobs.stopMeasures

/-- What the end of the bursts, the jobs and the MEASURE entries leaves, and what it posts (R80, R110). -/
theorem State.WorkKept.aborted_leaves (h : s.WorkKept) :
    s.SameOutside s.aborted ∧ (∀ c, s.aborted.job c = none) ∧ s.aborted.table = []
      ∧ (∀ c, s.aborted.chan c
        = if (s.chan c).state = .calibrating then (s.chan c).calibrationFails else s.chan c)
      ∧ s.aborted.posting
        = (allChannels.flatMap (s.jobPosts allChannels)
            ++ s.table.filterMap PendingEntry.abortedMeasure).foldl Queue.receive s.posting := by
  have kept : s.abandonBursts.WorkKept := h.of_blocks rfl rfl rfl
  have nodup : allChannels.Nodup := List.nodup_finRange 24
  have member : ∀ c, c ∈ allChannels := List.mem_finRange
  have each : ∀ c, s.abandonBursts.stopJobs.job c = none
      ∧ s.abandonBursts.stopJobs.chan c
        = if (s.chan c).state = .calibrating then (s.chan c).calibrationFails else s.chan c := by
    intro c
    obtain ⟨job, chan⟩ := s.abandonBursts.stopJobs_each nodup c
    have running : (s.job c).isSome = true ↔ (s.chan c).state = .calibrating := by
      rw [h.1 c, beq_iff_eq]
    refine ⟨job.trans (if_pos (member c)), chan.trans (if_congr ?_ rfl rfl)⟩
    exact (and_iff_right (member c)).trans running
  have measures : s.abandonBursts.stopJobs.table.filterMap PendingEntry.abortedMeasure
      = s.table.filterMap PendingEntry.abortedMeasure := kept.measures_stopJobs allChannels
  have jobPosts : s.abandonBursts.stopJobs.posting
      = (allChannels.flatMap (s.jobPosts allChannels)).foldl Queue.receive s.posting :=
    kept.posting_stopJobs nodup fun d _ => member d
  have outside : s.SameOutside s.abandonBursts.stopJobs :=
    .trans (t := s.abandonBursts) (.refl s) (s.abandonBursts.stopJobs_sameOutside allChannels)
  have only := (kept.moves (.stopJobs _)).measures_of_no_job fun c => (each c).1
  unfold State.aborted
  generalize s.abandonBursts.stopJobs = u at each measures jobPosts outside only
  have all : u.stopMeasures = u.table.foldl (fun s e => s.completeEntry e .aborted) u := by
    rw [State.stopMeasures, List.filter_eq_self.2 only]
  obtain ⟨empty, posted⟩ := State.completeAll_empties rfl only
  obtain ⟨rest, channels, jobs⟩ := u.completeAll_sameOutside u.table .aborted
  rw [all]
  refine ⟨outside.trans rest, fun c => ?_, empty, fun c => ?_, ?_⟩
  · rw [State.job, jobs]
    exact (each c).1
  · rw [State.chan, channels]
    exact (each c).2
  · rw [posted, measures, jobPosts, List.foldl_append]

/-- The RELEASE events of a stop, in ascending key order (R127). -/
theorem State.stopReleases_eq (s : State) (ks : List KeyNo) :
    (ks.filter s.isPressed).map (fun k => .release k .stopped) = ks.filterMap s.stopRelease := by
  have each : ∀ k, s.stopRelease k = if s.isPressed k then some (.release k .stopped) else none := by
    intro k
    unfold State.stopRelease State.isPressed
    cases s.key k with
    | none => rfl
    | some r => exact if_congr beq_iff_eq.symm rfl rfl
  induction ks with
  | nil => rfl
  | cons k rest ih =>
    rw [List.filter_cons, List.filterMap_cons, each, ← ih]
    cases s.isPressed k <;> rfl

/-- What the stop at the keys posts (R127). -/
theorem State.posting_stopKeys (s : State) :
    s.stopKeys.posting = (allKeys.filterMap s.stopRelease).foldl Queue.receive s.posting := by
  have released : ∀ b ∈ (allKeys.filter s.isPressed).map fun k => Body.release k .stopped,
      b.isEvent = true := fun b hb => by
    obtain ⟨k, -, rfl⟩ := List.mem_map.1 hb
    rfl
  unfold State.stopKeys
  rw [State.posting_postAll _ released, State.stopReleases_eq,
    State.posting_of_same (s.mapKeys_queue _) (s.mapKeys_table _)]

/-- The stop at the keys changes the keys and the queue alone (R127). -/
theorem State.stopKeys_eq (s : State) :
    ∃ keys queue, (∀ k : KeyNo, keys[k] = (s.key k).map Key.stop)
      ∧ s.stopKeys = { s with keys := keys, queue := queue } := by
  unfold State.stopKeys State.mapKeys
  rw [State.postAll_eq]
  exact ⟨Vector.ofFn fun k => (s.key k).map Key.stop, _, fun k => by simp, rfl⟩

theorem State.stopOthers_eq (s : State) :
    s.stopOthers
      = ((s.aborted.mapChannels fun _ ch => ch.stop).stopKeys).post (.mode .stopped .request) := by
  unfold State.stopOthers State.aborted
  rfl

/-- What the stop's parts behind the scheduler's post, in order (R110). -/
theorem State.WorkKept.posting_stopOthers (h : s.WorkKept) :
    s.stopOthers.posting = s.stopPosts.foldl Queue.receive s.posting := by
  obtain ⟨outside, -, -, -, posted⟩ := h.aborted_leaves
  have mode : (Body.mode .stopped .request).isEvent = true := rfl
  rw [State.stopOthers_eq, State.posting_post _ mode, State.posting_stopKeys]
  generalize s.aborted = u at outside posted ⊢
  have releases : (u.mapChannels fun _ ch => ch.stop).stopRelease = s.stopRelease := by
    funext k
    unfold State.stopRelease State.key
    rw [State.mapChannels_keys, outside.keys]
  rw [releases, State.posting_of_same (u.mapChannels_queue _) (u.mapChannels_table _), posted,
    State.stopPosts_eq]
  simp only [List.foldl_append, List.foldl_cons, List.foldl_nil]

/-- The records, the jobs, the table and the keys that the stop's parts behind the scheduler's leave
(R62, R80, R110, R127). -/
theorem State.WorkKept.stopOthers_each (h : s.WorkKept) :
    (∀ c, s.stopOthers.job c = none) ∧ s.stopOthers.table = []
      ∧ (∀ c, s.stopOthers.chan c = (s.chan c).stopped)
      ∧ ∀ k, s.stopOthers.key k = (s.key k).map Key.stop := by
  obtain ⟨outside, jobs, table, chans, -⟩ := h.aborted_leaves
  rw [State.stopOthers_eq]
  generalize s.aborted = u at outside jobs table chans
  have jobs' := u.mapChannels_jobs fun _ ch => ch.stop
  have table' := u.mapChannels_table fun _ ch => ch.stop
  have chans' := u.chan_mapChannels fun _ ch => ch.stop
  have keys' := (u.mapChannels_keys fun _ ch => ch.stop).trans outside.keys
  generalize u.mapChannels (fun _ ch => ch.stop) = v at jobs' table' chans' keys'
  obtain ⟨keys, queue, released, stopped⟩ := v.stopKeys_eq
  rw [stopped]
  refine ⟨fun c => ?_, table'.trans table, fun c => ?_, fun k => ?_⟩
  · rw [← jobs c, State.job, State.job, ← jobs']
    rfl
  · rw [← Channel.stopped_eq, ← chans c, ← chans' c]
    rfl
  · rw [State.key, State.key, ← keys']
    exact released k

/-- Two states that differ in their blocks alone are one state once the blocks are replaced. -/
theorem State.SameOutside.overwrite {s t : State} (h : s.SameOutside t) (v : State) :
    ({ t with
        engines := v.engines, channels := v.channels, jobs := v.jobs, keys := v.keys,
        queue := v.queue, table := v.table } : State)
      = { s with
          engines := v.engines, channels := v.channels, jobs := v.jobs, keys := v.keys,
          queue := v.queue, table := v.table } := by
  unfold State.SameOutside at h
  rw [← h]

/-- The stop's parts behind the scheduler's leave the part outside the blocks and the keys (R110). -/
theorem State.WorkKept.stopOthers_rest (h : s.WorkKept) (v : State) :
    ({ s.stopOthers with
        engines := v.engines, channels := v.channels, jobs := v.jobs, keys := v.keys,
        queue := v.queue, table := v.table } : State)
      = { s with
          engines := v.engines, channels := v.channels, jobs := v.jobs, keys := v.keys,
          queue := v.queue, table := v.table } := by
  obtain ⟨outside, -⟩ := h.aborted_leaves
  rw [← outside.overwrite v, State.stopOthers_eq]
  generalize s.aborted = u
  obtain ⟨keys, queue, -, stopped⟩ := (u.mapChannels fun _ ch => ch.stop).stopKeys_eq
  rw [stopped]
  unfold State.mapChannels State.post
  rfl

end

/-! ## The bursts that complete in the instant of a stop -/

section
variable {s : State} {e : EngineId} {r : BurstRecord} {timer counter c1 : Nat}

/-- An engine that is not in its second half-window has no burst to complete (R16). -/
theorem State.completionsInStop_none (h : ∀ e r timer counter c1, s.engine e ≠ .half2 r timer counter c1)
    (ms : List (EngineId × Nat)) : ms.foldl State.completeInStop s = s := by
  have one : ∀ m, s.completeInStop m = s := by
    intro m
    unfold State.completeInStop
    split
    · exact absurd ‹_› (h _ _ _ _ _)
    all_goals rfl
  induction ms with
  | nil => rfl
  | cons m rest ih => rw [List.foldl_cons, one, ih]

/-- A SCAN sample delivered in the instant of a stop is discarded, or applied with its events; it signals
nothing (R13, R16, R44). -/
theorem State.completeInStop_scan (hm : s.sched.mode = .stopped)
    (he : s.engine e = .half2 r timer counter c1) (hp : r.purpose = .scan) (cycles : Nat) :
    let x := r.sample (s.chan r.channel).config.noiseLimit c1 (min 16383 (counter + cycles))
    let effect := (s.chan r.channel).scanSample r.channel x
    (r.generation ≠ (s.chan r.channel).generation →
        s.completeInStop (e, cycles) = s.setEngine e .idle)
      ∧ (r.generation = (s.chan r.channel).generation →
        s.completeInStop (e, cycles)
          = { s.setChan r.channel effect.channel with
              queue := effect.events.foldl (fun q b => q.offer s.table.length b) s.queue
              engines := s.engines.set e .idle }) := by
  intro x effect
  have delivered : s.completeInStop (e, cycles) = (s.deliverScan r x).setEngine e .idle := by
    unfold State.completeInStop State.deliver
    dsimp only
    rw [he]
    dsimp only
    rw [hp]
    rfl
  rw [delivered]
  refine ⟨fun hg => ?_, fun hg => ?_⟩
  · rw [State.deliverScan_discarded x (.inl hg)]
  · have applied : s.deliverScan r x = s.applyEffect r.channel effect := if_pos hg
    rw [applied, State.applyEffect_stopped hm, State.postAll_eq]
    rfl

/-- The eighth non-fault sample in FAULT leads into UNCAL and posts its event (R43, R44). -/
theorem Channel.scanSample_faultExit {ch : Channel} {x : Sample} (c : ChannelNo)
    (hs : ch.state = .fault) (hg : ch.goodRun = 7) (hx : ∀ kind, x.cls ≠ .fault kind) :
    ch.scanSample c x
      = { channel := { ch with lastRaw := x.raw, lastNoise := x.noise, goodRun := 0, state := .uncal }
          events := [.fault c .clear]
          faultExit := true } := by
  rw [Channel.scanSample_inFault c hs, Channel.sampleInFault_good _ c hx]
  exact if_neg (by rw [hg]; decide)

/-- A FAULT exit in the instant of a stop leaves the channel UNCAL with its generation, and makes no job
(R16, R44). -/
theorem State.completeInStop_faultExit (hm : s.sched.mode = .stopped)
    (he : s.engine e = .half2 r timer counter c1) (hp : r.purpose = .scan) {cycles : Nat}
    (hg : r.generation = (s.chan r.channel).generation) (hs : (s.chan r.channel).state = .fault)
    (h7 : (s.chan r.channel).goodRun = 7)
    (hx : ∀ kind, (r.sample (s.chan r.channel).config.noiseLimit c1
      (min 16383 (counter + cycles))).cls ≠ .fault kind) :
    let t := s.completeInStop (e, cycles)
    (t.chan r.channel).state = .uncal
      ∧ (t.chan r.channel).generation = (s.chan r.channel).generation
      ∧ t.job r.channel = s.job r.channel ∧ t.sched = s.sched
      ∧ t.queue = s.queue.offer s.table.length (.fault r.channel .clear) := by
  intro t
  have applied := (State.completeInStop_scan hm he hp cycles).2 hg
  have exit := Channel.scanSample_faultExit r.channel hs h7 hx
  have record : t.chan r.channel = _ :=
    (congrArg (State.chan · r.channel) applied).trans (s.chan_setChan_self r.channel _)
  rw [exit] at applied record
  rw [record, show t = _ from applied]
  exact ⟨rfl, rfl, rfl, rfl, rfl⟩

end

/-! ## The request -/

theorem exec_setMode_stopped {s : State} {i : SlotId} {f : Frame} (ht : s.Takes 0x2A i f)
    (hp : f.payload = [0]) (hm : s.sched.mode ≠ .stopped) :
    exec .setMode s = .next ((s.afterTake i).stopPart.afterReply f.tag .ok) := by
  rw [exec_setMode ht, State.doSetMode_taken (s := s.afterTake i) (m := .stopped) hp (by decide)
    (fun h => nomatch h), State.setMode_stopped (s := s.afterTake i) hm]

end Sys2Proof.Machine

namespace Sys2Proof

open Machine

/-- Settles O20: the parts of the stop from the state `w` that they find, which keeps the work as the bursts
of its instant do; and those bursts by the moves of a SCAN sample. -/
theorem stopLeavesNothingRunning : Obligations.StopLeavesNothingRunning := by
  refine ⟨fun s i f kept ht hp hm => ?_, fun s ms h => State.completionsInStop_none h ms,
    fun s e r timer counter c1 cycles hm he hp => ?_⟩
  · intro halted w
    have run : exec .setMode s
        = .next (({ w with freeCount := s.freeCount + 1 } : State).stopOthers.afterReply f.tag .ok) :=
      exec_setMode_stopped ht hp hm
    have outside : halted.SameOutside w := State.completionsInStop_sameOutside rfl _
    have found : w.WorkKept := (kept.of_blocks (t := halted) rfl rfl rfl).moves (.completionsInStop _ _)
    clear_value w
    have drawn : ({ w with freeCount := s.freeCount + 1 } : State).WorkKept :=
      found.of_blocks rfl rfl rfl
    have posted : ({ w with freeCount := s.freeCount + 1 } : State).stopOthers.queue
        = (w.stopPosts.foldl Queue.receive (w.queue, w.table.length)).1 :=
      congrArg Prod.fst drawn.posting_stopOthers
    obtain ⟨engines, -⟩ := State.stopOthers_outside { w with freeCount := s.freeCount + 1 }
    obtain ⟨jobs, table, chans, keys⟩ := drawn.stopOthers_each
    have rest := drawn.stopOthers_rest s
    generalize State.stopOthers { w with freeCount := s.freeCount + 1 } = t at *
    refine ⟨_, run, engines, jobs, table, chans, fun k => ?_, ?_, ?_⟩
    · have same : w.key k = s.key k := by
        rw [State.key, outside.keys]
        rfl
      exact (keys k).trans (congrArg (Option.map Key.stop) same)
    · rw [← posted]
      rfl
    · exact rest.trans
        (congrArg (fun u : State => { u with freeCount := s.freeCount + 1 }) (outside.overwrite s))
  · obtain ⟨discarded, applied⟩ := State.completeInStop_scan hm he hp cycles
    exact ⟨discarded, applied, State.completeInStop_faultExit hm he hp⟩

end Sys2Proof
end

section
/-! The key table after every step (O59): the rules on the keys speak of the key table alone, which nothing
changes but an evaluation, a stop, a request that writes a record, and a reset. -/

namespace Sys2Proof.Machine

/-! ## What the rules on the keys read -/

section
variable {s t : State} {k : KeyNo}

theorem State.key_of_keys_eq (h : t.keys = s.keys) : t.key = s.key := by
  funext k
  rw [State.key, h, State.key]

theorem State.GroupsExclusive.of_keys_eq (h : s.GroupsExclusive) (hk : t.keys = s.keys) :
    t.GroupsExclusive := by
  rw [State.GroupsExclusive, State.key_of_keys_eq hk]
  exact h

/-- The channel lists of the keys alone decide whether a channel is listed twice (R114). -/
theorem State.KeyChannelsDistinct.of_channels_eq (h : s.KeyChannelsDistinct)
    (hk : ∀ k, (t.key k).map Key.channels = (s.key k).map Key.channels) : t.KeyChannelsDistinct := by
  obtain ⟨nodup, apart⟩ := h
  have before : ∀ k r, t.key k = some r → ∃ r', s.key k = some r' ∧ r'.channels = r.channels :=
    fun k r hr => Option.map_eq_some_iff.1 ((hk k).symm.trans (congrArg _ hr))
  refine ⟨fun k r hr => ?_, fun k k' r r' c hr hr' hc hc' => ?_⟩
  · obtain ⟨q, hq, same⟩ := before k r hr
    exact same ▸ nodup k q hq
  · obtain ⟨q, hq, same⟩ := before k r hr
    obtain ⟨q', hq', same'⟩ := before k' r' hr'
    exact apart k k' q q' c hq hq' (same ▸ hc) (same' ▸ hc')

/-- A channel is listed elsewhere exactly when another defined key lists it (R115). -/
theorem State.listedElsewhere_iff {c : ChannelNo} :
    s.listedElsewhere k c = true ↔ ∃ k' r, k' ≠ k ∧ s.key k' = some r ∧ c ∈ r.channels := by
  simp only [State.listedElsewhere, allKeys, List.any_eq_true, List.mem_finRange, true_and,
    Bool.and_eq_true, bne_iff_ne]
  refine exists_congr fun k' => ?_
  cases s.key k' with
  | none => simp
  | some r => simp

/-! ## One record written -/

/-- A key that reads PRESSED after the write of a RELEASED record is as it was. -/
theorem State.GroupsExclusive.setKeyRecord (h : s.GroupsExclusive) {x : Option Key}
    (hx : ∀ r ∈ x, r.state = .released) : (s.setKeyRecord k x).GroupsExclusive := by
  have before : ∀ k' r, (s.setKeyRecord k x).key k' = some r → r.state = .pressed →
      s.key k' = some r := fun k' r hr hp => by
    by_cases hk : k' = k
    · subst hk
      rw [State.key_setKeyRecord_self] at hr
      rw [hx r hr] at hp
      cases hp
    · rwa [State.key_setKeyRecord_ne s x hk] at hr
  intro a b r r' g ha hb hg hg' hp hp'
  exact h a b r r' g (before a r ha hp) (before b r' hb hp') hg hg' hp hp'

/-- A record that lists no channel twice, and none that another key lists, keeps the lists apart (R115). -/
theorem State.KeyChannelsDistinct.setKeyRecord (h : s.KeyChannelsDistinct) {x : Option Key}
    (hn : ∀ r ∈ x, r.channels.Nodup)
    (hx : ∀ r ∈ x, ∀ c ∈ r.channels, s.listedElsewhere k c = false) :
    (s.setKeyRecord k x).KeyChannelsDistinct := by
  obtain ⟨nodup, apart⟩ := h
  have written : ∀ r, (s.setKeyRecord k x).key k = some r → x = some r := fun r hr => by
    rwa [State.key_setKeyRecord_self] at hr
  have others : ∀ k', k' ≠ k → (s.setKeyRecord k x).key k' = s.key k' := fun k' =>
    State.key_setKeyRecord_ne s x
  have free : ∀ k' r r' c, k' ≠ k → x = some r → s.key k' = some r' → c ∈ r.channels →
      c ∉ r'.channels := fun k' r r' c hk hr hr' hc hc' =>
    Bool.eq_false_iff.1 (hx r hr c hc) (State.listedElsewhere_iff.2 ⟨k', r', hk, hr', hc'⟩)
  refine ⟨fun a r ha => ?_, fun a b r r' c ha hb hc hc' => ?_⟩
  · by_cases hk : a = k
    · subst hk
      exact hn r (written r ha)
    · exact nodup a r ((others a hk).symm.trans ha)
  · by_cases hak : a = k <;> by_cases hbk : b = k
    · exact hak.trans hbk.symm
    · subst hak
      rw [others b hbk] at hb
      exact absurd hc' (free b r r' c hbk (written r ha) hb hc)
    · subst hbk
      rw [others a hak] at ha
      exact absurd hc (free a r' r c hak (written r' hb) ha hc')
    · rw [others a hak] at ha
      rw [others b hbk] at hb
      exact apart a b r r' c ha hb hc hc'

end

/-! ## Moves, effects and steps -/

/-- The two invariants of the key table. -/
def State.KeysKept (s : State) : Prop := s.GroupsExclusive ∧ s.KeyChannelsDistinct

section
variable {s t : State}

theorem State.KeysKept.of_keys_eq (h : s.KeysKept) (hk : t.keys = s.keys) : t.KeysKept := by
  obtain ⟨groups, lists⟩ := h
  exact ⟨groups.of_keys_eq hk, lists.of_channels_eq fun k => by rw [State.key_of_keys_eq hk]⟩

theorem State.abortJob_sameOutside (s : State) (c : ChannelNo) : s.SameOutside (s.abortJob c) := by
  unfold State.abortJob
  split
  · exact State.endJob_sameOutside s c ‹_› _ _ _
  · exact .refl s

theorem State.abortJobs_sameOutside (s : State) (cs : List ChannelNo) :
    s.SameOutside (cs.foldl State.abortJob s) := by
  induction cs generalizing s with
  | nil => exact .refl s
  | cons c rest ih => exact (s.abortJob_sameOutside c).trans (ih _)

theorem State.cancelCalibrate_keys (s : State) (tag : Byte) :
    (s.cancelCalibrate tag).keys = s.keys := by
  have aborted : (s.abortJobsOfTag tag).keys = s.keys :=
    (s.abortJobs_sameOutside (s.jobsOfTag tag)).keys
  unfold State.cancelCalibrate
  dsimp only
  split
  · exact aborted
  · exact aborted

theorem State.createJobs_keys (s : State) (tag : Byte) {cs : List ChannelNo} (hn : cs.Nodup) :
    (s.createJobs tag cs).keys = s.keys := by
  unfold State.createJobs
  rw [State.createJobs_eq _ _ _ hn]

theorem State.settleEnd_keys (s : State) (e : EngineId) : (s.settleEnd e).keys = s.keys := by
  unfold State.settleEnd
  split <;> rfl

theorem State.halfWindowEnd_keys (s : State) (e : EngineId) (cycles : Nat) :
    (s.halfWindowEnd e cycles).keys = s.keys := by
  unfold State.halfWindowEnd
  split <;> rfl

theorem State.tick_keys (s : State) : s.tick.keys = s.keys := by
  simp only [State.tick]

/-- A move of a block keeps the keys, of which one kind alone writes them. -/
theorem State.KeysKept.move (h : s.KeysKept) (hm : Move s t) : t.KeysKept := by
  cases hm with
  | keys f same groups =>
    obtain ⟨exclusive, distinct⟩ := h
    exact ⟨groups exclusive, distinct.of_channels_eq fun k => by rw [State.key_mapKeys, same]⟩
  | channels f => exact h.of_keys_eq (s.mapChannels_keys f)
  | ended c j o ch events status =>
    exact h.of_keys_eq ((s.endJob_sameOutside c j o ch events).trans
      (State.closeEntryOf_sameOutside _ j.origin status)).keys
  | cancelled e => exact h.of_keys_eq (s.cancelCalibrate_keys e.tag)
  | post | sched | freed | taken | abandon | drawn | channel | create | advance | measured | completed =>
    exact h.of_keys_eq rfl

theorem State.KeysKept.moves (h : s.KeysKept) (hm : Moves s t) : t.KeysKept :=
  Moves.keeps (p := State.KeysKept) (fun _ _ hm h => h.move hm) hm h

theorem State.KeysKept.blocksReset (queue : Queue) (address : BitVec 7) (cause : ResetCause)
    (inReset : Option ResetCause) : (s.blocksReset queue address cause inReset).KeysKept :=
  State.KeysKept.of_keys_eq ⟨State.reset_groupsExclusive, State.reset_keyChannelsDistinct⟩ rfl

/-- Every effect of a command keeps the keys. -/
theorem State.KeysKept.effect (h : s.KeysKept) (he : Effect s t) : t.KeysKept := by
  cases he with
  | nothing => exact h
  | settled e => exact h.of_keys_eq (s.settleEnd_keys e)
  | halved e cycles => exact h.of_keys_eq (s.halfWindowEnd_keys e cycles)
  | completed e cycles => exact h.moves (.burstComplete s e cycles)
  | period => exact h.moves (.periodExpiry s)
  | inactivity => exact h.moves (.inactivityExpiry s)
  | maxOn c => exact h.moves (.maxOnExpiry s c)
  | ticked => exact h.of_keys_eq s.tick_keys
  | reset queue address cause inReset => exact .blocksReset queue address cause inReset
  | configured c g => exact (h.of_keys_eq (s.setChan_keys c _)).moves (.autoJobIfScanned _ c)
  | keyWritten k x _ hx =>
    obtain ⟨groups, lists⟩ := h
    exact ⟨groups.setKeyRecord fun r hr => (hx r hr).1,
      lists.setKeyRecord (fun r hr => (hx r hr).2.1) fun r hr => (hx r hr).2.2⟩
  | listWritten | timed => exact h.of_keys_eq rfl
  | moded m => exact h.moves (.setMode s m)
  | calibrated tag cs _ hn =>
    exact (h.of_keys_eq (State.createJobs_keys (s.openEntry tag (.calibrate cs [])) tag hn)).moves
      (.workTaken _)
  | measured tag x =>
    exact (h.of_keys_eq (t := s.openEntry tag (.measure x.channel x.slot x.count [])) rfl).moves
      (.workTaken _)
  | cancelled e he => exact h.moves (.cancelEntry s e he)

end

end Sys2Proof.Machine

namespace Sys2Proof

open Machine

/-- Settles O59: the one effect of a step, between changes of the port and the queue alone. -/
theorem keysAreKept : Obligations.KeysAreKept := by
  intro s t groups lists hs
  obtain ⟨u, hu, v, he, hv⟩ := step_comes hs
  have kept : s.KeysKept := ⟨groups, lists⟩
  exact ((kept.of_keys_eq hu.keys).effect he).of_keys_eq hv.keys

end Sys2Proof
end

section
/-! SET_KEY: the values it refuses, and the record it writes (O14). -/

namespace Sys2Proof.Machine

/-! ## The payload -/

theorem channelOf_of_lt {n : Nat} (h : 23 < n) : channelOf n = none := by
  rw [channelOf, dif_neg (by omega)]

theorem keyOf_of_lt {n : Nat} (h : 15 < n) : keyOf n = none := by
  rw [keyOf, dif_neg (by omega)]

theorem keyKindOf_eq_some {n : Nat} {kind : KeyKind} :
    keyKindOf n = some kind ↔ n = match kind with | .button => 0 | .slider => 1 := by
  unfold keyKindOf
  split <;> cases kind <;> simp_all

/-- Bytes that name channels name as many, each byte in range. -/
theorem channelList_eq_some {bytes : List Byte} {cs : List ChannelNo}
    (h : channelList bytes = some cs) : cs.length = bytes.length ∧ ∀ b ∈ bytes, b.toNat ≤ 23 := by
  induction bytes generalizing cs with
  | nil => cases h; simp
  | cons b rest ih =>
    unfold channelList at h
    split at h
    · rename_i c cs' hc hcs
      cases h
      obtain ⟨len, range⟩ := ih hcs
      refine ⟨congrArg (· + 1) len, List.forall_mem_cons.2 ⟨?_, range⟩⟩
      by_contra hb
      rw [channelOf_of_lt (Nat.lt_of_not_le hb)] at hc
      cases hc
    · cases h

theorem setKeyLengthOk_of_accepts {p : List Byte} (h : acceptsLength .setKey p) :
    setKeyLengthOk p = true := by
  obtain ⟨h6, h13, n, hn, hl⟩ := h
  have count : byteAt p 4 = n.toNat := by
    rw [byteAt, List.getD_eq_getElem?_getD, show p[4]? = some n from hn, Option.getD_some]
  simp only [setKeyLengthOk, inRange, Bool.and_eq_true, decide_eq_true_eq, count]
  exact ⟨⟨h6, h13⟩, hl⟩

/-- What the range check of a SET_KEY establishes (R163, R174). -/
theorem inRange_of_parseSetKey {p : List Byte} {x : SetKeyOperands} (h : parseSetKey p = .ok x) :
    byteAt p 0 ≤ 15 ∧ byteAt p 2 ≤ 4 ∧ (∀ b ∈ p.drop 5, b.toNat ≤ 23)
      ∧ (byteAt p 1 = 0 ∧ byteAt p 4 = 1 ∨ byteAt p 1 = 1 ∧ byteAt p 3 ≤ 32 ∧ 2 ≤ byteAt p 4) := by
  unfold parseSetKey at h
  split at h
  · rename_i hl
    split at h
    · rename_i k kind cs hk hkind hcs
      split at h
      · rename_i hr
        obtain ⟨len, named⟩ := channelList_eq_some hcs
        simp only [setKeyLengthOk, Bool.and_eq_true, decide_eq_true_eq] at hl
        have count : cs.length = byteAt p 4 := by
          rw [len, List.length_drop]
          omega
        have key : byteAt p 0 ≤ 15 := by
          by_contra hk'
          rw [keyOf_of_lt (Nat.lt_of_not_le hk')] at hk
          cases hk
        rw [keyKindOf_eq_some] at hkind
        simp only [Bool.and_eq_true, decide_eq_true_eq, count] at hr
        obtain ⟨⟨group, step⟩, suits⟩ := hr
        refine ⟨key, group, named, ?_⟩
        cases kind with
        | button => exact .inl ⟨hkind, by simpa [countSuits] using suits⟩
        | slider =>
          have bounds : 2 ≤ byteAt p 4 ∧ byteAt p 4 ≤ 8 := by
            simpa [countSuits, inRange] using suits
          exact .inr ⟨hkind, by simpa [slideStepOk] using step, bounds.1⟩
      · cases h
    · cases h
  · cases h

/-- Of a length that is accepted, a SET_KEY reads well or is RANGE (R166). -/
theorem parseSetKey_ok_or_range {p : List Byte} (h : acceptsLength .setKey p) :
    (∃ x, parseSetKey p = .ok x) ∨ parseSetKey p = .error .range := by
  unfold parseSetKey
  rw [if_pos (setKeyLengthOk_of_accepts h)]
  split
  · split
    · exact .inl ⟨_, rfl⟩
    · exact .inr rfl
  · exact .inr rfl

/-- The slide step that a byte gives, the byte compared as a word (R114, R163). -/
theorem slideStepOf_toNat (kind : KeyKind) (step : Byte) :
    slideStepOf kind step.toNat
      = match kind with
        | .button => none
        | .slider => some (if step = 0 then 4 else step.toNat) := by
  cases kind with
  | button => rfl
  | slider => exact congrArg some (if_congr (BitVec.toNat_inj (y := 0)) rfl rfl)

/-! ## The request -/

/-- The check of step 5 (R115, R174). -/
theorem State.setKeyConflict_iff {s : State} {k : KeyNo} {cs : List ChannelNo} :
    (hasRepeat cs || cs.any (s.listedElsewhere k)) = true
      ↔ ¬ cs.Nodup ∨ ∃ k' r c, k' ≠ k ∧ s.key k' = some r ∧ c ∈ cs ∧ c ∈ r.channels := by
  simp only [hasRepeat_eq, Bool.or_eq_true, decide_eq_true_eq, List.any_eq_true,
    State.listedElsewhere_iff]
  refine or_congr_right ⟨?_, ?_⟩
  · rintro ⟨c, hc, k, r, hk, hr, hcr⟩
    exact ⟨k, r, c, hk, hr, hc, hcr⟩
  · rintro ⟨k, r, c, hk, hr, hc, hcr⟩
    exact ⟨c, hc, k, r, hk, hr, hcr⟩

section
variable {s : State} {i : SlotId} {f : Frame}

theorem exec_setKey (h : s.Takes 0x18 i f) :
    exec .setKey s = .next ((s.afterTake i).doSetKey f) :=
  congrArg _ (State.takeRequest_of_takes h rfl)

variable {x : SetKeyOperands} (hp : parseSetKey f.payload = .ok x)
include hp

theorem State.doSetKey_state (hm : s.sched.mode ≠ .stopped) :
    s.doSetKey f = s.afterReply f.tag .state := by
  unfold State.doSetKey
  rw [hp]
  exact State.perform_of_failed (by simp [State.notStopped, hm])

theorem State.doSetKey_conflict (hm : s.sched.mode = .stopped)
    (hc : (hasRepeat x.channels || x.channels.any (s.listedElsewhere x.key)) = true) :
    s.doSetKey f = s.afterReply f.tag .conflict := by
  unfold State.doSetKey
  rw [hp]
  refine State.perform_of_failed ?_
  rw [State.notStopped_eq_false.2 hm, hc]
  rfl

theorem State.doSetKey_stores (hm : s.sched.mode = .stopped)
    (hc : (hasRepeat x.channels || x.channels.any (s.listedElsewhere x.key)) = false) :
    s.doSetKey f = (s.setKeyRecord x.key (some x.record)).afterReply f.tag .ok := by
  unfold State.doSetKey
  rw [hp]
  refine State.perform_of_passed ?_
  rw [State.notStopped_eq_false.2 hm, hc]
  rfl

end

end Sys2Proof.Machine

namespace Sys2Proof

open Machine

/-- Settles O14: a payload out of range fails the reading, and one in range meets the later checks in turn. -/
theorem setKeyReplacesTheRecord : Obligations.SetKeyReplacesTheRecord := by
  constructor
  · intro s i f ht hl one out
    rw [exec_setKey ht]
    rcases parseSetKey_ok_or_range hl with ⟨x, hx⟩ | refused
    · obtain ⟨key, grp, named, kinds⟩ := inRange_of_parseSetKey hx
      have listed : ¬ ∃ b ∈ f.payload.drop 5, 23 < b.toNat := fun ⟨b, hb, h⟩ =>
        absurd (named b hb) (Nat.not_le.2 h)
      have counted : ∀ j, one j = byteAt f.payload j := fun _ => rfl
      simp only [counted, listed, or_false] at out
      omega
    · rw [State.doSetKey, refused, State.perform_error]
  · intro s i f k kind group step cs ht spelled hg hn
    have parsed := spelled ▸ parseSetKey_spelled k kind group step cs hg hn
    rw [exec_setKey ht]
    refine ⟨fun hm => ?_, fun hm conflict => ?_, fun hm nodup free => ?_⟩
    · exact congrArg _ (State.doSetKey_state parsed hm)
    · exact congrArg _ (State.doSetKey_conflict parsed hm (State.setKeyConflict_iff.2 conflict))
    · have passes : (hasRepeat cs || cs.any ((s.afterTake i).listedElsewhere k)) = false :=
        Bool.eq_false_iff.2 fun hc => by
          rcases State.setKeyConflict_iff.1 hc with hr | ⟨k', r, c, hk, hr, hc, hcr⟩
          · exact hr nodup
          · exact free k' r c hk hr hc hcr
      have stored := State.doSetKey_stores (s := s.afterTake i) parsed hm passes
      simp only [SetKeyOperands.record, slideStepOf_toNat] at stored
      exact congrArg _ stored

end Sys2Proof
end

section
/-! The position of a slider (O50): the lowest index of the largest delta, the interpolation between its
neighbours, and the scale. -/

namespace Sys2Proof.Machine

/-! ## The largest delta -/

theorem le_foldl_max {ds : List Nat} {d : Nat} (h : d ∈ ds) : d ≤ ds.foldl max 0 := by
  rw [List.foldl_max]
  exact (List.le_max?_getD_of_mem h).trans (le_max_right 0 _)

theorem foldl_max_mem {ds : List Nat} (h : ds ≠ []) : ds.foldl max 0 ∈ ds := by
  rw [List.foldl_max, Nat.zero_max]
  cases hm : ds.max? with
  | none => exact absurd (List.max?_eq_none_iff.1 hm) h
  | some m => exact List.max?_mem hm

/-- The lowest index of the largest delta is where the model finds it (R122). -/
theorem idxOf_foldl_max {ds : List Nat} {i : Nat} (hi : i < ds.length)
    (largest : ∀ j, j < ds.length → ds.getD j 0 ≤ ds.getD i 0)
    (lowest : ∀ j, j < i → ds.getD j 0 < ds.getD i 0) : ds.idxOf (ds.foldl max 0) = i := by
  have peak : ds.foldl max 0 = ds[i] := by
    refine Nat.le_antisymm ?_ (le_foldl_max (List.getElem_mem hi))
    have nonempty : ds ≠ [] := List.ne_nil_of_length_pos (Nat.zero_lt_of_lt hi)
    obtain ⟨j, hj, found⟩ := List.getElem_of_mem (foldl_max_mem nonempty)
    have := largest j hj
    rwa [List.getD_eq_getElem _ _ hj, List.getD_eq_getElem _ _ hi, found] at this
  refine (List.findIdx_eq hi).2 ⟨beq_iff_eq.2 peak.symm, fun j hj => beq_eq_false_iff_ne.2 ?_⟩
  have := lowest j hj
  rw [List.getD_eq_getElem _ _ (hj.trans hi), List.getD_eq_getElem _ _ hi, ← peak] at this
  exact Nat.ne_of_lt this

/-! ## The quotient rounded toward zero -/

theorem tdiv_bounds_of_nonneg {a b : Int} (ha : 0 ≤ a) (hb : 0 < b) :
    0 ≤ a.tdiv b ∧ a.tdiv b * b ≤ a ∧ a < (a.tdiv b + 1) * b := by
  rw [Int.tdiv_eq_ediv_of_nonneg ha]
  exact ⟨Int.ediv_nonneg ha hb.le, Int.ediv_mul_le a hb.ne', Int.lt_ediv_add_one_mul_self a hb⟩

theorem tdiv_bounds_of_nonpos {a b : Int} (ha : a ≤ 0) (hb : 0 < b) :
    a.tdiv b ≤ 0 ∧ a ≤ a.tdiv b * b ∧ (a.tdiv b - 1) * b < a := by
  obtain ⟨sign, below, above⟩ := tdiv_bounds_of_nonneg (Int.neg_nonneg.2 ha) hb
  rw [Int.neg_tdiv] at sign below above
  exact ⟨by omega, by linarith, by linarith⟩

/-! ## The place and the scale -/

/-- The delta of the neighbour below, 0 outside the row (R122). -/
def deltaBefore (ds : List Nat) (i : Nat) : Nat := if i = 0 then 0 else ds.getD (i - 1) 0

/-- The interpolation between the neighbours of a channel (R122). -/
def interpolation (ds : List Nat) (i : Nat) : Int :=
  (256 * ((ds.getD (i + 1) 0 : Int) - deltaBefore ds i)).tdiv
    (deltaBefore ds i + ds.getD i 0 + ds.getD (i + 1) 0 : Nat)

theorem sliderPosition_eq {ds : List Nat} {i : Nat} (hi : ds.idxOf (ds.foldl max 0) = i) :
    sliderPosition ds
      = (max 0 (min ((256 * (ds.length - 1) : Nat) : Int) (256 * i + interpolation ds i))).toNat * 255
          / (256 * (ds.length - 1)) := by
  simp only [sliderPosition, sliderPlace, hi]
  rfl

/-- A place held within the row lies on the scale. -/
theorem sliderPosition_le (ds : List Nat) : sliderPosition ds ≤ 255 := by
  rw [sliderPosition_eq rfl]
  refine Nat.div_le_of_le_mul (Nat.mul_le_mul_right 255 ?_)
  omega

/-- Between neighbours without a delta, a slider is at its channel's place on the scale. -/
theorem sliderPosition_of_alone {ds : List Nat} {i : Nat} (h2 : 2 ≤ ds.length) (hi : i < ds.length)
    (alone : ∀ j, j ≠ i → ds.getD j 0 = 0) (lowest : ∀ j, j < i → ds.getD j 0 < ds.getD i 0) :
    sliderPosition ds = i * 255 / (ds.length - 1) := by
  have largest : ∀ j, j < ds.length → ds.getD j 0 ≤ ds.getD i 0 := fun j _ => by
    by_cases hj : j = i
    · rw [hj]
    · rw [alone j hj]
      exact Nat.zero_le _
  have before : deltaBefore ds i = 0 := by
    unfold deltaBefore
    split
    · rfl
    · exact alone _ (by omega)
  have still : interpolation ds i = 0 := by
    rw [interpolation, before, alone (i + 1) (by omega)]
    exact Int.zero_tdiv _
  have place : (max 0 (min ((256 * (ds.length - 1) : Nat) : Int) (256 * i + 0))).toNat = 256 * i := by
    omega
  rw [sliderPosition_eq (idxOf_foldl_max hi largest lowest), still, place, Nat.mul_assoc,
    Nat.mul_div_mul_left _ _ (by decide)]

end Sys2Proof.Machine

namespace Sys2Proof

open Machine

/-- Settles O50, by the bounds of the interpolation on either side and the hold within the row. -/
theorem sliderPositionsLieOnTheScale : Obligations.SliderPositionsLieOnTheScale := by
  intro ds h2 _
  refine ⟨?_, sliderPosition_le ds, fun zero => ?_, fun i hi touched alone => ?_⟩
  · intro i hi largest lowest before after sum span
    refine ⟨interpolation ds i, fun flat => ?_, fun deep up => ?_, fun deep down => ?_,
      sliderPosition_eq (idxOf_foldl_max hi largest lowest)⟩
    · exact (congrArg (Int.tdiv _) (congrArg Nat.cast flat)).trans (Int.tdiv_zero _)
    · have rises : deltaBefore ds i ≤ ds.getD (i + 1) 0 := up
      exact tdiv_bounds_of_nonneg (by omega) (Int.natCast_pos.2 deep)
    · have falls : ds.getD (i + 1) 0 ≤ deltaBefore ds i := down
      exact tdiv_bounds_of_nonpos (by omega) (Int.natCast_pos.2 deep)
  · have zeros : ∀ j, ds.getD j 0 = 0 := fun j => by
      by_cases hj : j < ds.length
      · rw [List.getD_eq_getElem _ _ hj]
        exact zero _ (List.getElem_mem hj)
      · exact List.getD_eq_default _ _ (Nat.le_of_not_lt hj)
    rw [sliderPosition_of_alone h2 (i := 0) (by omega) (fun j _ => zeros j) fun j hj => nomatch hj]
    simp
  · exact sliderPosition_of_alone h2 hi alone fun j hj => by rwa [alone j (by omega)]

end Sys2Proof
end

section
/-! The evaluation of the keys: how each key moves (O49), and what it posts (O48). -/

namespace Sys2Proof.Machine

/-! ## Judging one key -/

theorem ChannelState.isHeld_iff (st : ChannelState) :
    st.isHeld = true ↔ st = .touched ∨ st = .releasing := by
  cases st <;> simp [ChannelState.isHeld]

theorem ChannelState.disqualifies_eq_false (st : ChannelState) :
    st.disqualifies = false ↔ st ≠ .fault ∧ st ≠ .calibrating := by
  cases st <;> simp [ChannelState.disqualifies]

theorem KeyState.eq_released {st : KeyState} (h : st ≠ .pressed) : st = .released := by
  cases st with
  | released => rfl
  | pressed => exact absurd rfl h

section
variable {look : ChannelNo → ChannelCopy} {k : KeyNo} {r : Key}

/-- The candidates of R117. -/
theorem Key.candidate_iff :
    r.candidate look = true ↔
      (∃ c ∈ r.channels, (look c).state = .touched ∨ (look c).state = .releasing)
        ∧ (r.kind = .slider →
          ∀ c ∈ r.channels, (look c).state ≠ .fault ∧ (look c).state ≠ .calibrating) := by
  unfold Key.candidate
  cases r.kind with
  | button => simp [ChannelState.isHeld_iff]
  | slider => simp [ChannelState.isHeld_iff, ChannelState.disqualifies_eq_false]

/-- A key's strength bounds the delta of each of its channels (R118). -/
theorem Key.le_strength {c : ChannelNo} (h : c ∈ r.channels) :
    (look c).delta.toNat ≤ r.strength look :=
  le_foldl_max (List.mem_map_of_mem h)

/-- A strength above 0 is the delta of one of the channels (R118). -/
theorem Key.strength_attained (h : r.strength look ≠ 0) :
    ∃ c ∈ r.channels, (look c).delta = r.strength look := by
  have deltas : r.deltas look ≠ [] := fun empty => h (by rw [Key.strength, empty]; rfl)
  obtain ⟨c, hc, eq⟩ := List.mem_map.1 (foldl_max_mem deltas)
  have eq : (look c).delta.toNat = r.strength look := eq
  exact ⟨c, hc, by omega⟩

/-- The causes of R121, in their order. -/
theorem Key.releaseCause_eq :
    r.releaseCause look
      = if ∃ c ∈ r.channels, (look c).state = .fault then .fault
        else if ∃ c ∈ r.channels, (look c).note = .timeout then .timeout
        else if ∃ c ∈ r.channels, (look c).note = .reconfig ∨ (look c).state = .calibrating then
          .reconfig
        else .normal := by
  simp only [Key.releaseCause, List.any_eq_true, Bool.or_eq_true, beq_iff_eq]

theorem positionDistance_eq (p q : Nat) : positionDistance p q = ((p : Int) - q).natAbs := by
  unfold positionDistance
  omega

/-- A key that stays PRESSED reports a movement of the slide step or more (R123). -/
theorem Key.slides_eq (r : Key) (k : KeyNo) (look : ChannelNo → ChannelCopy) :
    r.slides k look
      = ({ r with
            lastPosition :=
              match r.kind, r.lastPosition, r.slideStep with
              | .slider, some q, some step =>
                if step ≤ ((sliderPosition (r.deltas look) : Int) - q).natAbs then
                  some (sliderPosition (r.deltas look))
                else some q
              | _, _, _ => r.lastPosition },
          match r.kind, r.lastPosition, r.slideStep with
          | .slider, some q, some step =>
            if step ≤ ((sliderPosition (r.deltas look) : Int) - q).natAbs then
              some (.slide k (sliderPosition (r.deltas look)))
            else none
          | _, _, _ => none) := by
  obtain ⟨kind, channels, group, slideStep, state, lastPosition⟩ := r
  cases kind with
  | button => rfl
  | slider =>
    cases lastPosition with
    | none => rfl
    | some q =>
      cases slideStep with
      | none => rfl
      | some step =>
        simp only [Key.slides, Key.position, positionDistance_eq]
        split <;> rfl

/-! ## Suppression groups -/

variable {keys : KeyNo → Option Key} {g : Nat}

/-- A group is held by a PRESSED candidate (R120). -/
theorem groupHeld_iff :
    groupHeld keys look g = true ↔
      ∃ k r, keys k = some r ∧ r.group = some g ∧ r.state = .pressed ∧ r.candidate look = true := by
  simp only [groupHeld, allKeys, List.any_eq_true, List.mem_finRange, true_and]
  refine exists_congr fun k => ?_
  cases keys k with
  | none => simp
  | some r => simp [and_assoc]

/-- Which candidate wins a free group (R120). -/
theorem isStrongest_iff :
    isStrongest keys look g k r = true ↔
      ∀ k' r', keys k' = some r' → r'.group = some g → r'.candidate look = true →
        r'.strength look < r.strength look ∨ (r'.strength look = r.strength look ∧ k ≤ k') := by
  simp only [isStrongest, allKeys, List.all_eq_true, List.mem_finRange, true_imp_iff]
  refine forall_congr' fun k' => ?_
  cases keys k' with
  | none => simp
  | some r' => simp [or_iff_not_imp_left]

/-- A RELEASED candidate is pressed where it has no group, or wins one that is free (R119, R120). -/
theorem mayPress_iff :
    mayPress keys look k r = true ↔
      ∀ g, r.group = some g →
        ¬ groupHeld keys look g = true ∧ isStrongest keys look g k r = true := by
  unfold mayPress
  cases r.group with
  | none => simp
  | some g => simp

/-! ## The move of one key -/

/-- The move of a key, by its states before and after (R119, R120). -/
theorem Key.move_eq (keys : KeyNo → Option Key) (look : ChannelNo → ChannelCopy) (k : KeyNo)
    (r : Key) :
    Key.move keys look k r
      = match r.state, (Key.move keys look k r).1.state with
        | .released, .released => (r, none)
        | .released, .pressed =>
          ({ r with state := .pressed, lastPosition := r.position look },
            some (.press k (r.strength look) (r.position look)))
        | .pressed, .released =>
          ({ r with state := .released, lastPosition := none }, some (.release k (r.releaseCause look)))
        | .pressed, .pressed => r.slides k look := by
  cases hs : r.state <;> cases hc : r.candidate look
  · simp [Key.move, hs, hc]
  · by_cases hm : mayPress keys look k r = true <;> simp [Key.move, hs, hc, hm]
  · simp [Key.move, hs, hc]
  · have stays : Key.move keys look k r = r.slides k look := by simp [Key.move, hs, hc]
    rw [stays, Key.slides_eq, hs]

/-- When the move of a key leaves it PRESSED (R119, R120). -/
theorem Key.move_pressed_iff :
    (Key.move keys look k r).1.state = .pressed ↔
      r.candidate look = true ∧ (r.state = .pressed ∨ mayPress keys look k r = true) := by
  obtain ⟨-, -, h, -⟩ := Key.move_cases keys look k r
  exact h

/-- A key that the move leaves RELEASED (R119, R123). -/
theorem Key.move_record_of_released (h : (Key.move keys look k r).1.state ≠ .pressed) :
    (Key.move keys look k r).1
      = { r with
          state := .released
          lastPosition := if r.state = .pressed then none else r.lastPosition } := by
  obtain ⟨kind, channels, group, slideStep, state, lastPosition⟩ := r
  rw [Key.move_eq, KeyState.eq_released h]
  cases state <;> rfl

/-- A key that the move presses (R119, R122). -/
theorem Key.move_record_of_pressed (h : (Key.move keys look k r).1.state = .pressed)
    (hr : r.state = .released) :
    (Key.move keys look k r).1
      = { r with state := .pressed, lastPosition := r.position look } := by
  rw [Key.move_eq, h, hr]

/-- The event of a key, by its states before and after (R119, R123). -/
theorem Key.move_event (keys : KeyNo → Option Key) (look : ChannelNo → ChannelCopy) (k : KeyNo)
    (r : Key) :
    (Key.move keys look k r).2
      = match r.state, (Key.move keys look k r).1.state with
        | .released, .released => none
        | .released, .pressed => some (.press k (r.strength look) (r.position look))
        | .pressed, .released => some (.release k (r.releaseCause look))
        | .pressed, .pressed => (r.slides k look).2 := by
  refine (congrArg Prod.snd (Key.move_eq keys look k r)).trans ?_
  cases r.state <;> cases (Key.move keys look k r).1.state <;> rfl

/-- A key that stays PRESSED. -/
theorem Key.move_of_stays_pressed (h : (Key.move keys look k r).1.state = .pressed)
    (hr : r.state = .pressed) : Key.move keys look k r = r.slides k look := by
  rw [Key.move_eq, h, hr]

end

/-! ## The evaluation -/

theorem State.evaluateKeys_chan (s : State) (c : ChannelNo) :
    s.evaluateKeys.chan c = { s.chan c with note := .none } := by
  rw [State.evaluateKeys_eq]
  simp [State.chan]

theorem State.evaluateKeys_key (s : State) (k : KeyNo) :
    s.evaluateKeys.key k = keyAfter s.key (fun c => (s.chan c).copy) k := by
  rw [State.evaluateKeys_eq]
  simp [State.key]

/-- A defined key after an evaluation. -/
theorem State.evaluateKeys_key_of_defined {s : State} {k : KeyNo} {r : Key} (h : s.key k = some r) :
    s.evaluateKeys.key k = some (Key.move s.key (fun c => (s.chan c).copy) k r).1 := by
  rw [State.evaluateKeys_key, keyAfter, h]
  rfl

end Sys2Proof.Machine

namespace Sys2Proof

open Machine

/-- Settles O49: each key by its move, whose conditions are candidacy and the winning of a free group. -/
theorem keysMoveByCandidacy : Obligations.KeysMoveByCandidacy := by
  intro s k r hk look touched pressed held wins
  have candidate : ∀ r, touched r ↔ r.candidate look = true := fun r =>
    (Key.candidate_iff (look := look) (r := r)).symm
  have now := State.evaluateKeys_key_of_defined hk
  have moved : (Key.move s.key look k r).1.state = .pressed ↔ pressed := by
    show _ ↔ (s.evaluateKeys.key k).map Key.state = _
    rw [now]
    exact Option.some_inj.symm
  have presses : r.state = .released →
      (pressed ↔ touched r ∧ mayPress s.key look k r = true) := fun hr => by
    rw [← moved, Key.move_pressed_iff, candidate, hr]
    simp
  have holds : ∀ g, held g ↔ groupHeld s.key look g = true := fun g => by
    simp only [held, groupHeld_iff, candidate]
  have strongest : ∀ g, wins g ↔ isStrongest s.key look g k r = true := fun g => by
    simp only [wins, isStrongest_iff, candidate]
  refine ⟨fun hr => ?_, fun hr hg => ?_, fun g hr hg => ?_, fun up => ?_, fun down hr => ?_,
    fun down hr => ?_, fun c hc => Key.le_strength (look := look) hc, ?_⟩
  · rw [← moved, Key.move_pressed_iff, candidate, hr]
    simp
  · rw [presses hr, mayPress_iff, hg]
    simp
  · rw [presses hr, mayPress_iff, hg, holds, strongest]
    simp
  · rw [now, Key.move_record_of_released (mt moved.1 up)]
  · rw [now, Key.move_record_of_pressed (moved.2 down) hr]
    rfl
  · rw [now, Key.move_of_stays_pressed (moved.2 down) hr, Key.slides_eq]
    rfl
  · by_cases zero : r.strength look = 0
    · exact .inl zero
    · obtain ⟨c, hc, attained⟩ := Key.strength_attained zero
      exact .inr ⟨c, hc, (Option.getD_eq_iff.1 attained).resolve_right
        fun ⟨_, absent⟩ => zero (by omega)⟩

/-- Settles O48: each key's event by its move, and the order by the list of events. -/
theorem evaluationOrdersItsEvents : Obligations.EvaluationOrdersItsEvents := by
  intro s delta position cause slide event events
  let look := fun c => (s.chan c).copy
  have causes : ∀ r, cause r = r.releaseCause look := fun r =>
    (Key.releaseCause_eq (look := look) (r := r)).symm
  have slides : ∀ k r, slide k r = (r.slides k look).2 := fun k r =>
    (congrArg Prod.snd (r.slides_eq k look)).symm
  have each : ∀ k, event k = keyEvent s.key look k := fun k => by
    cases hk : s.key k with
    | none => simp only [event, keyEvent, hk, Option.bind_none]
    | some r =>
      simp only [event, keyEvent, hk, State.evaluateKeys_key_of_defined hk, Option.map_some,
        Option.bind_some, causes, slides]
      exact (Key.move_event s.key look k r).symm
  refine ⟨s.evaluateKeys_chan, ?_⟩
  have same : events = allKeys.filterMap (keyEvent s.key look) :=
    List.filterMap_congr fun k _ => each k
  rw [State.evaluateKeys_eq, same]
  rfl

end Sys2Proof
end

section
/-! The outbound queue after every step (O54, O55). Whatever a claim posts comes down to a few changes of
the queue and of the number of pending entries it shares its room with; a step is a chain of these, a
change of the head by a read, the answer to a request, or a reset. Each invariant of the queue is followed
through these changes alone. -/

namespace Sys2Proof.Machine

/-! ## The operations of the queue -/

section
variable {q : Queue} {b : Body} {k : KeyNo} {position : Nat} {e : Entry}

@[simp] theorem Queue.entries_join (q : Queue) (b : Body) :
    (q.join b).entries = q.entries ++ [{ seq := q.nextSeq, body := b }] := rfl

@[simp] theorem Queue.nextSeq_join (q : Queue) (b : Body) : (q.join b).nextSeq = q.nextSeq + 1 := rfl

@[simp] theorem Queue.entries_retire (q : Queue) : q.retire.entries = q.entries.tail := rfl

@[simp] theorem Queue.nextSeq_setHeadRead (q : Queue) (r : ReadState) :
    (q.setHeadRead r).nextSeq = q.nextSeq := by
  unfold Queue.setHeadRead
  split <;> rfl

theorem Queue.setHeadRead_nil (h : q.entries = []) (r : ReadState) : q.setHeadRead r = q := by
  unfold Queue.setHeadRead
  rw [h]

theorem Queue.setHeadRead_cons {rest : List Entry} (h : q.entries = e :: rest) (r : ReadState) :
    q.setHeadRead r = { q with entries := { e with read := r } :: rest } := by
  unfold Queue.setHeadRead
  rw [h]

/-- A change of the head's read state changes nothing else of the entries. -/
theorem Queue.map_setHeadRead {α : Type} (q : Queue) (r : ReadState) (f : Entry → α)
    (hf : ∀ e, f { e with read := r } = f e) :
    (q.setHeadRead r).entries.map f = q.entries.map f := by
  cases h : q.entries with
  | nil => rw [Queue.setHeadRead_nil h, h]
  | cons e rest => rw [Queue.setHeadRead_cons h, List.map_cons, List.map_cons, hf]

theorem Queue.length_setHeadRead (q : Queue) (r : ReadState) :
    (q.setHeadRead r).entries.length = q.entries.length := by
  simpa using congrArg List.length (q.map_setHeadRead r Entry.seq fun _ => rfl)

theorem Queue.tail_setHeadRead (q : Queue) (r : ReadState) :
    (q.setHeadRead r).entries.tail = q.entries.tail := by
  cases h : q.entries with
  | nil => rw [Queue.setHeadRead_nil h, h]
  | cons e rest => rw [Queue.setHeadRead_cons h, List.tail_cons, List.tail_cons]

/-- A QUEUED SLIDE of a key, as the rules say it (R139). -/
theorem Entry.isQueuedSlide_iff :
    e.isQueuedSlide k = true ↔ e.read = .queued ∧ ∃ position, e.body = .slide k position := by
  obtain ⟨seq, body, read⟩ := e
  cases body with
  | slide k' p =>
    simp only [Entry.isQueuedSlide, Bool.and_eq_true, beq_iff_eq, Body.slide.injEq]
    exact ⟨fun ⟨hk, hr⟩ => ⟨hr, p, hk, rfl⟩, fun ⟨hr, _, hk, _⟩ => ⟨hk, hr⟩⟩
  | _ => simp [Entry.isQueuedSlide]

theorem Entry.coalesce_of_not (h : e.isQueuedSlide k = false) : e.coalesce k position = e := by
  unfold Entry.coalesce
  rw [if_neg (by rw [h]; decide)]

theorem Entry.coalesce_of_queued (h : e.isQueuedSlide k = true) :
    e.coalesce k position = { e with body := .slide k position } := by
  unfold Entry.coalesce
  rw [if_pos h]

/-- What the fold of a position leaves of any entry: all but the position of a SLIDE. -/
theorem Entry.coalesce_cases (k : KeyNo) (position : Nat) (e : Entry) :
    e.coalesce k position = e
      ∨ ∃ p, e.body = .slide k p ∧ e.coalesce k position = { e with body := .slide k position } := by
  cases h : e.isQueuedSlide k with
  | false => exact .inl (Entry.coalesce_of_not h)
  | true =>
    obtain ⟨-, p, hb⟩ := Entry.isQueuedSlide_iff.1 h
    exact .inr ⟨p, hb, Entry.coalesce_of_queued h⟩

theorem Entry.seq_coalesce (k : KeyNo) (position : Nat) (e : Entry) :
    (e.coalesce k position).seq = e.seq := by
  rcases e.coalesce_cases k position with h | ⟨-, -, h⟩ <;> rw [h]

theorem Entry.read_coalesce (k : KeyNo) (position : Nat) (e : Entry) :
    (e.coalesce k position).read = e.read := by
  rcases e.coalesce_cases k position with h | ⟨-, -, h⟩ <;> rw [h]

theorem Entry.isEvent_coalesce (k : KeyNo) (position : Nat) (e : Entry) :
    (e.coalesce k position).body.isEvent = e.body.isEvent := by
  rcases e.coalesce_cases k position with h | ⟨p, hb, h⟩ <;> rw [h]
  rw [hb]
  rfl

theorem Entry.isQueuedSlide_coalesce (k k' : KeyNo) (position : Nat) (e : Entry) :
    (e.coalesce k position).isQueuedSlide k' = e.isQueuedSlide k' := by
  rcases e.coalesce_cases k position with h | ⟨p, hb, h⟩ <;> rw [h]
  simp only [Entry.isQueuedSlide, hb]

/-- The key has no unsent SLIDE in the queue, where the body is a SLIDE of a key (R139). -/
def Queue.FreshFor (q : Queue) (b : Body) : Prop :=
  ∀ k position, b = .slide k position → ∀ e ∈ q.entries, e.isQueuedSlide k = false

theorem Queue.FreshFor.join (h : q.FreshFor b) (lost : Nat) :
    (q.join (.overrun lost)).FreshFor b := by
  intro k p hb e he
  rcases List.mem_append.1 he with he | he
  · exact h k p hb e he
  · cases List.mem_singleton.1 he
    rfl

/-! ## What a posting changes -/

/-- One change that an offer or a completion makes to the queue and to the number of pending entries. -/
inductive Posts : Queue × Nat → Queue × Nat → Prop
  | counted (q : Queue) (n lost : Nat) : Posts (q, n) ({ q with lost := lost }, n)
  | coalesced (q : Queue) (n : Nat) (k : KeyNo) (position : Nat) :
      Posts (q, n) ({ q with entries := q.entries.map (Entry.coalesce k position) }, n)
  | admitted (q : Queue) (n : Nat) (b : Body) (room : q.entries.length + n < 28)
      (fresh : q.FreshFor b) : Posts (q, n) (q.join b, n)
  | completed (q : Queue) (n : Nat) (tag : Byte) (status : Status) (work : LongWork) :
      Posts (q, n + 1) (q.join (.complete tag status work), n)

/-- A chain of such changes. -/
def PostsAll : Queue × Nat → Queue × Nat → Prop := Relation.ReflTransGen Posts

theorem PostsAll.refl (x : Queue × Nat) : PostsAll x x := Relation.ReflTransGen.refl

theorem PostsAll.of_eq {x y : Queue × Nat} (h : y = x) : PostsAll x y := h ▸ .refl x

theorem PostsAll.trans {x y z : Queue × Nat} (h : PostsAll x y) (h' : PostsAll y z) : PostsAll x z :=
  Relation.ReflTransGen.trans h h'

theorem Posts.all {x y : Queue × Nat} (h : Posts x y) : PostsAll x y := Relation.ReflTransGen.single h

/-- What every change keeps, every chain of changes keeps. -/
theorem PostsAll.keeps {p : Queue × Nat → Prop} (one : ∀ x y, Posts x y → p x → p y)
    {x y : Queue × Nat} (h : PostsAll x y) (hp : p x) : p y := by
  induction h with
  | refl => exact hp
  | tail _ hl ih => exact one _ _ hl ih

theorem Queue.admitEvent_posts (q : Queue) (n : Nat) (b : Body) (h : q.FreshFor b) :
    PostsAll (q, n) (q.admitEvent n b, n) := by
  unfold Queue.admitEvent
  split
  · rename_i room
    split
    · have overrun : PostsAll (q, n) ({ q.join (.overrun q.lost) with lost := 0 }, n) :=
        (Posts.admitted q n (.overrun q.lost) room fun _ _ h => nomatch h).all.trans
          (Posts.counted _ n 0).all
      dsimp only
      split
      · rename_i room'
        exact overrun.trans
          (Posts.admitted { q.join (.overrun q.lost) with lost := 0 } n b room' (h.join q.lost)).all
      · exact overrun.trans (Posts.counted _ n _).all
    · exact (Posts.admitted q n b room h).all
  · exact (Posts.counted q n _).all

/-- The offer of an event (R134 to R139). -/
theorem Queue.offer_posts (q : Queue) (n : Nat) (b : Body) : PostsAll (q, n) (q.offer n b, n) := by
  unfold Queue.offer
  split
  · exact .refl _
  · split
    · rename_i k position _
      split
      · exact (Posts.coalesced q n k position).all
      · rename_i h
        refine q.admitEvent_posts n _ fun k' p hb e he => ?_
        cases hb
        simp only [List.any_eq_true, not_exists, not_and, Bool.not_eq_true] at h
        exact h e he
    · rename_i h
      exact q.admitEvent_posts n b fun k p hb => absurd hb (h k p)

end

/-! ## What the blocks post -/

section
variable {s t : State}

theorem State.post_posts (s : State) (b : Body) : PostsAll s.posting (s.post b).posting :=
  s.queue.offer_posts s.table.length b

theorem State.postAll_posts (s : State) (bs : List Body) :
    PostsAll s.posting (s.postAll bs).posting := by
  induction bs generalizing s with
  | nil => exact .refl _
  | cons b rest ih => exact (s.post_posts b).trans (ih (s.post b))

/-- A pending entry leaves the table as its COMPLETE joins the queue (R136, R169). -/
theorem State.completeEntry_posts {e : PendingEntry} (he : e ∈ s.table) (status : Status) :
    PostsAll s.posting (s.completeEntry e status).posting := by
  have one := Posts.completed s.queue (s.table.erase e).length e.tag status e.work
  rw [List.length_erase_add_one he] at one
  exact one.all

theorem State.appendResult_posting (s : State) (tag : Byte) (r : CalResult) :
    (s.appendResult tag r).posting = s.posting := by
  unfold State.appendResult
  split
  · split
    · exact Prod.ext rfl (List.length_replace ..)
    · rfl
  · rfl

theorem State.endJob_posts (s : State) (c : ChannelNo) (j : Job) (o : CalOutcome) (ch : Channel)
    (events : List Body) : PostsAll s.posting (s.endJob c j o ch events).posting := by
  refine (State.postAll_posts ((s.setChan c ch).setJob c none) events).trans ?_
  unfold State.endJob State.handResult
  split
  · exact .refl _
  · split
    · exact .of_eq (State.appendResult_posting _ _ _)
    · exact State.post_posts _ _

theorem State.closeEntryOf_posts (s : State) (origin : JobOrigin) (status : Option Status) :
    PostsAll s.posting (s.closeEntryOf origin status).posting := by
  unfold State.closeEntryOf
  split
  · exact .refl _
  · split
    · rename_i e he
      split
      · exact State.completeEntry_posts (State.mem_of_entryOfTag he).1 _
      · exact .refl _
    · exact .refl _

theorem State.abortJobs_posts (s : State) (cs : List ChannelNo) :
    PostsAll s.posting (cs.foldl State.abortJob s).posting := by
  induction cs generalizing s with
  | nil => exact .refl _
  | cons c rest ih =>
    refine .trans ?_ (ih (s.abortJob c))
    unfold State.abortJob
    split
    · exact s.endJob_posts c _ _ _ _
    · exact .refl _

theorem State.cancelCalibrate_posts (s : State) (tag : Byte) :
    PostsAll s.posting (s.cancelCalibrate tag).posting := by
  have aborted : PostsAll s.posting (s.abortJobsOfTag tag).posting := s.abortJobs_posts _
  unfold State.cancelCalibrate
  dsimp only
  split
  · rename_i e he
    exact aborted.trans (State.completeEntry_posts (State.mem_of_entryOfTag he).1 _)
  · exact aborted

theorem State.createJobs_posting (s : State) (tag : Byte) (cs : List ChannelNo) :
    (s.createJobs tag cs).posting = s.posting := by
  induction cs generalizing s with
  | nil => rfl
  | cons c rest ih => exact ih (s.createJob c (.request tag))

/-- What a move of a block posts. -/
theorem Move.posts (h : Move s t) : PostsAll s.posting t.posting := by
  cases h with
  | post b => exact s.post_posts b
  | ended c j o ch events status =>
    exact (s.endJob_posts c j o ch events).trans (State.closeEntryOf_posts _ _ _)
  | completed e status he => exact State.completeEntry_posts he status
  | cancelled e => exact s.cancelCalibrate_posts e.tag
  | measured => exact .of_eq (Prod.ext rfl (List.length_replace ..))
  | channels f => exact .of_eq (State.posting_of_same (s.mapChannels_queue f) (s.mapChannels_table f))
  | keys f => exact .of_eq (State.posting_of_same (s.mapKeys_queue f) (s.mapKeys_table f))
  | sched | freed | taken | abandon | drawn | channel | create | advance => exact .refl _

theorem Moves.posts (h : Moves s t) : PostsAll s.posting t.posting := by
  induction h with
  | refl => exact .refl _
  | tail _ hm ih => exact ih.trans hm.posts

end

/-! ## What a step does to the queue -/

/-- What a step does to the queue and to the number of pending entries. A request is taken with the room
that R164 asks for, and opens at most one entry before what it posts and its REPLY (R136). -/
inductive QueueStep : Queue × Nat → Queue × Nat → Prop
  | posted {x y : Queue × Nat} (h : PostsAll x y) : QueueStep x y
  | answered {q q' : Queue} {n m n' : Nat} (mask tag : Byte) (status : Status) (data : ReplyData)
      (room : q.entries.length + n ≤ 30) (opened : m ≤ n + 1) (h : PostsAll (q, m) (q', n')) :
      QueueStep (q, n) ({ q' with mask := mask }.join (.reply tag status data), n')
  | headRead (q : Queue) (n : Nat) (r : ReadState) (hr : r ≠ .queued) :
      QueueStep (q, n) (q.setHeadRead r, n)
  | retired (q : Queue) (n : Nat) : QueueStep (q, n) (q.retire, n)
  | inReset (x : Queue × Nat) : QueueStep x (Queue.inReset, 0)
  | restarted (x : Queue × Nat) (cause : ResetCause) (tag : Option Byte) :
      QueueStep x (Queue.afterReset cause tag, 0)

section
variable {s t u : State}

theorem QueueStep.of_eq {x y : Queue × Nat} (h : y = x) : QueueStep x y := .posted (.of_eq h)

theorem Moves.queueStep (h : Moves s t) : QueueStep s.posting t.posting := .posted h.posts

/-- A request that opens no entry is answered after what it posts. -/
theorem PostsAll.replied (h : PostsAll s.posting u.posting) (room : s.load ≤ 30) (tag : Byte)
    (status : Status) (data : ReplyData) :
    QueueStep s.posting (u.reply tag status data).posting :=
  .answered u.queue.mask tag status data room (Nat.le_succ _) h

/-- A request that opens an entry is answered after what it posts. -/
theorem PostsAll.accepted {work : LongWork} {tag : Byte}
    (h : PostsAll (s.openEntry tag work).posting u.posting) (room : s.load ≤ 30) (status : Status) :
    QueueStep s.posting (u.reply tag status).posting :=
  .answered u.queue.mask tag status .nothing room (m := (s.openEntry tag work).table.length)
    (by simp) h

/-! ### Requests -/

theorem State.perform_queueStep {α : Type} (room : s.load ≤ 30) (tag : Byte)
    (operands : Except Status α) (checks : α → List (Bool × Status)) {effect : α → State}
    (h : ∀ x, QueueStep s.posting (effect x).posting) :
    QueueStep s.posting (s.perform tag operands checks effect).posting := by
  rcases s.perform_cases tag operands checks effect with ⟨status, he, -⟩ | ⟨x, -, -, he⟩ <;> rw [he]
  · exact PostsAll.replied (.refl s.posting) room tag status .nothing
  · exact h x

/-- A request command takes a frame with the room that R164 asks for, or nothing. -/
theorem State.takeRequest_queueStep (s : State) (ok : Byte → Bool) {handle : State → Frame → State}
    (h : ∀ (u : State) (f : Frame), u.load ≤ 30 → QueueStep u.posting (handle u f).posting) :
    QueueStep s.posting (s.takeRequest ok handle).posting := by
  rcases s.takeRequest_cases ok handle with he | ⟨i, f, ⟨-, room, -⟩, -, he⟩ <;> rw [he]
  · exact .of_eq rfl
  · exact h (s.afterTake i) f room

theorem State.doCancel_queueStep (room : s.load ≤ 30) (f : Frame) :
    QueueStep s.posting (s.doCancel f).posting := by
  refine State.perform_queueStep room _ _ _ fun tag => ?_
  split
  · rename_i e he
    obtain ⟨-, ht⟩ := State.mem_of_entryOfTag he
    exact (Moves.cancelEntry s e (ht ▸ he)).posts.replied room _ _ _
  · exact PostsAll.replied (.refl s.posting) room _ _ _

theorem State.doCalibrate_queueStep (room : s.load ≤ 30) (f : Frame) :
    QueueStep s.posting (s.doCalibrate f).posting := by
  refine State.perform_queueStep room _ _ _ fun cs => ?_
  have created := State.createJobs_posting (s.openEntry f.tag (.calibrate (s.namedChannels cs) []))
    f.tag (s.namedChannels cs)
  exact PostsAll.accepted ((PostsAll.of_eq created).trans (Moves.workTaken _).posts) room _

theorem State.doMeasure_queueStep (room : s.load ≤ 30) (f : Frame) :
    QueueStep s.posting (s.doMeasure f).posting :=
  State.perform_queueStep room _ _ _ fun _ => PostsAll.accepted (Moves.workTaken _).posts room _

/-! ### The link port -/

theorem State.endRead_queueStep (s : State) (tr : Transmission) :
    QueueStep s.posting (s.endRead tr).posting := by
  unfold State.endRead
  dsimp only
  split
  · exact .headRead s.queue s.table.length .resent (by decide)
  · exact .of_eq rfl

theorem State.discardFrame_queueStep (s : State) (w : WriteRecord) (reason : LinkReason)
    (tag : Option Byte) : QueueStep s.posting (s.discardFrame w reason tag).posting :=
  .posted (State.post_posts (s.withLink (s.link.setSlot w.slot .empty).closed) _)

theorem State.judgeWrite_queueStep (s : State) (w : WriteRecord) :
    QueueStep s.posting (s.judgeWrite w).posting := by
  unfold State.judgeWrite
  dsimp only
  split
  · exact s.discardFrame_queueStep ..
  · split
    · exact s.discardFrame_queueStep ..
    · split
      · exact s.discardFrame_queueStep ..
      · split
        · exact .of_eq rfl
        · exact s.discardFrame_queueStep ..

theorem State.writeAddress_posting (s : State) (address : BitVec 7) :
    (s.writeAddress address).posting = s.posting := by
  unfold State.writeAddress
  repeat' split
  all_goals rfl

theorem State.writeByte_queueStep (s : State) (b : Byte) :
    QueueStep s.posting (s.writeByte b).posting := by
  unfold State.writeByte
  split
  · exact .of_eq rfl
  · exact .of_eq rfl
  · split
    · exact .of_eq rfl
    · split
      · unfold State.writeLen
        split
        · exact .of_eq rfl
        · exact .posted (State.post_posts (s.withLink _) _)
      · unfold State.writeNext
        split <;> exact .of_eq rfl

theorem State.readAddress_queueStep (s : State) (address : BitVec 7) :
    QueueStep s.posting (s.readAddress address).posting := by
  unfold State.readAddress
  split
  · exact .of_eq rfl
  · split
    · exact .of_eq rfl
    · exact .headRead s.queue s.table.length .sending (by decide)

theorem State.flagsByteStart_posting (s : State) : s.flagsByteStart.posting = s.posting := by
  unfold State.flagsByteStart
  repeat' split
  all_goals rfl

theorem State.headRetire_queueStep (s : State) : QueueStep s.posting s.headRetire.posting := by
  unfold State.headRetire
  split
  · split
    · exact .retired s.queue s.table.length
    · exact .of_eq rfl
  · exact .of_eq rfl
  · exact .of_eq rfl

theorem State.transactionEnd_queueStep (s : State) : QueueStep s.posting s.transactionEnd.posting := by
  unfold State.transactionEnd
  split
  · exact .of_eq rfl
  · split
    · exact .of_eq rfl
    · exact s.judgeWrite_queueStep _
  · exact s.endRead_queueStep _

theorem State.busTimeout_queueStep (s : State) : QueueStep s.posting s.busTimeout.posting := by
  unfold State.busTimeout
  split
  · exact .of_eq rfl
  · split
    · exact .of_eq rfl
    · exact s.discardFrame_queueStep ..
  · exact s.endRead_queueStep _

/-! ### Commands and steps -/

theorem State.settleEnd_posting (s : State) (e : EngineId) : (s.settleEnd e).posting = s.posting := by
  unfold State.settleEnd
  split <;> rfl

theorem State.halfWindowEnd_posting (s : State) (e : EngineId) (cycles : Nat) :
    (s.halfWindowEnd e cycles).posting = s.posting := by
  unfold State.halfWindowEnd
  split <;> rfl

theorem State.resetRelease_queueStep (s : State) (adr1 adr0 : Bool) :
    QueueStep s.posting (s.resetRelease adr1 adr0).posting := by
  unfold State.resetRelease
  split
  · exact .restarted ..
  · exact .of_eq rfl

/-- What every command does to the queue. -/
theorem exec_queueStep {i : Instr} (h : exec i s = .next t) : QueueStep s.posting t.posting := by
  have plain : ∀ {u v : State} {f : Frame} {status data}, u.load ≤ 30 → v.posting = u.posting →
      QueueStep u.posting (v.reply f.tag status data).posting := fun room same =>
    (PostsAll.of_eq same).replied room _ _ _
  cases i with
  | identify | status | getKey | getScan =>
    cases h
    exact s.takeRequest_queueStep _ fun u f room =>
      State.perform_queueStep room _ _ _ fun _ => plain room rfl
  | getChannel =>
    cases h
    exact s.takeRequest_queueStep _ fun u f room => State.perform_queueStep room _ _ _ fun _ =>
      plain (v := { u with freeCount := u.freeCount + viewFreeBytes }) room rfl
  | setKey | clearKey =>
    cases h
    exact s.takeRequest_queueStep _ fun u f room => State.perform_queueStep room _ _ _ fun _ =>
      plain (v := u.setKeyRecord _ _) room rfl
  | setScan | setTiming =>
    cases h
    exact s.takeRequest_queueStep _ fun u f room => State.perform_queueStep room _ _ _ fun _ =>
      plain (v := u.withSched _) room rfl
  | setChannel =>
    cases h
    exact s.takeRequest_queueStep _ fun u f room => State.perform_queueStep room _ _ _ fun x =>
      (Moves.autoJobIfScanned (u.setChan x.1 _) x.1).posts.replied (s := u) room _ _ _
  | setEvents =>
    cases h
    exact s.takeRequest_queueStep _ fun u f room => State.perform_queueStep room _ _ _ fun mask =>
      .answered mask f.tag .ok .nothing room (Nat.le_succ _) (.refl u.posting)
  | setMode =>
    cases h
    exact s.takeRequest_queueStep _ fun u f room => State.perform_queueStep room _ _ _ fun m =>
      (Moves.setMode u m).posts.replied room _ _ _
  | calibrate =>
    cases h
    exact s.takeRequest_queueStep _ fun u f room => State.doCalibrate_queueStep room f
  | measure =>
    cases h
    exact s.takeRequest_queueStep _ fun u f room => State.doMeasure_queueStep room f
  | cancel =>
    cases h
    exact s.takeRequest_queueStep _ fun u f room => State.doCancel_queueStep room f
  | restart =>
    cases h
    exact s.takeRequest_queueStep _ fun u f room => State.perform_queueStep room _ _ _ fun _ =>
      .restarted u.posting .restart (some f.tag)
  | unknownRequest =>
    cases h
    exact s.takeRequest_queueStep _ fun u f room => plain (v := u) (f := f) room rfl
  | settleEnd e => cases h; exact .of_eq (s.settleEnd_posting e)
  | halfWindowEnd e cycles => cases h; exact .of_eq (s.halfWindowEnd_posting e cycles)
  | burstComplete e cycles => cases h; exact (Moves.burstComplete s e cycles).queueStep
  | periodExpiry => cases h; exact (Moves.periodExpiry s).queueStep
  | inactivityExpiry => cases h; exact (Moves.inactivityExpiry s).queueStep
  | maxOnExpiry n =>
    cases h
    split
    · exact (Moves.maxOnExpiry s _).queueStep
    · exact .of_eq rfl
  | writeAddress a => cases h; exact .of_eq (s.writeAddress_posting a)
  | writeByte b => cases h; exact s.writeByte_queueStep b
  | transactionEnd kind => cases h; exact s.transactionEnd_queueStep
  | readAddress a => cases h; exact s.readAddress_queueStep a
  | headRetire => cases h; exact s.headRetire_queueStep
  | busTimeout => cases h; exact s.busTimeout_queueStep
  | powerOnReset | pinReset => cases h; exact .inReset s.posting
  | resetRelease a1 a0 => cases h; exact s.resetRelease_queueStep a1 a0
  | flagsByteStart => cases h; exact .of_eq s.flagsByteStart_posting

theorem State.idle_posting (s : State) : s.idle.posting = s.posting := by
  unfold State.idle
  split
  · exact State.posting_of_same (by simp only [State.tick]) (by simp only [State.tick])
  · rename_i x rest _
    obtain ⟨b, timer, cs, h, -⟩ := State.takeLine_changes { s with lines := rest } x
    rw [h]
    rfl

/-- What every step does to the queue. -/
theorem step_queueStep (h : step s = .next t) : QueueStep s.posting t.posting := by
  unfold step at h
  split at h
  · cases h
    exact .of_eq s.idle_posting
  · exact (exec_queueStep h :)

end

/-! ## The room -/

/-- The entries of the queue and the pending entries that share its room (R134). -/
def roomTaken (x : Queue × Nat) : Nat := x.1.entries.length + x.2

theorem State.roomTaken_posting (s : State) : roomTaken s.posting = s.load := rfl

/-- Postings take no room beyond 28: events stop there, and a COMPLETE takes its entry's place (R136). -/
theorem PostsAll.roomTaken_le {x y : Queue × Nat} {bound : Nat} (h : PostsAll x y) (hb : 28 ≤ bound)
    (hx : roomTaken x ≤ bound) : roomTaken y ≤ bound := by
  refine h.keeps (p := fun x => roomTaken x ≤ bound) (fun x y one hx => ?_) hx
  cases one with
  | counted => exact hx
  | coalesced => simpa [roomTaken] using hx
  | admitted q n b room =>
    simp only [roomTaken, Queue.entries_join, List.length_append, List.length_singleton]
    omega
  | completed q n =>
    simp only [roomTaken, Queue.entries_join, List.length_append, List.length_singleton] at hx ⊢
    omega

/-- A step takes the room to 32 at most (R136). -/
theorem QueueStep.roomTaken_le {x y : Queue × Nat} (h : QueueStep x y) (hx : roomTaken x ≤ 32) :
    roomTaken y ≤ 32 := by
  cases h with
  | posted h => exact h.roomTaken_le (by decide) hx
  | @answered q q' n m n' mask tag status data room opened h =>
    have : roomTaken (q', n') ≤ 31 := h.roomTaken_le (by decide) (by simp only [roomTaken]; omega)
    simp only [roomTaken, Queue.entries_join, List.length_append, List.length_singleton] at this ⊢
    omega
  | headRead q n r => simpa only [roomTaken, Queue.length_setHeadRead] using hx
  | retired q n =>
    simp only [roomTaken, Queue.entries_retire, List.length_tail] at hx ⊢
    omega
  | inReset => exact Nat.zero_le _
  | restarted => exact Nat.le_add_left 1 31

/-! ## The event entries -/

section
variable {q : Queue}

/-- A body that is admitted as an event finds the queue below 28 entries, whatever they are (R134). -/
theorem Queue.eventsBounded_join_of_room {n : Nat} (room : q.entries.length + n < 28) (b : Body) :
    (q.join b).EventsBounded := by
  refine List.countP_le_length.trans ?_
  simp only [Queue.entries_join, List.length_append, List.length_singleton]
  omega

theorem Queue.EventsBounded.answered (h : q.EventsBounded) {b : Body} (hb : b.isEvent = false) :
    (q.join b).EventsBounded := by
  simpa [Queue.EventsBounded, hb] using h

theorem Queue.EventsBounded.of_sublist (h : q.EventsBounded) {q' : Queue}
    (hs : (q'.entries.map Entry.body).Sublist (q.entries.map Entry.body)) : q'.EventsBounded := by
  have le := hs.countP_le (p := Body.isEvent)
  rw [List.countP_map, List.countP_map] at le
  exact le.trans h

theorem PostsAll.eventsBounded {x y : Queue × Nat} (h : PostsAll x y) (hx : x.1.EventsBounded) :
    y.1.EventsBounded := by
  refine h.keeps (p := fun x => x.1.EventsBounded) (fun x y one hx => ?_) hx
  cases one with
  | counted => exact hx
  | coalesced q n k position =>
    have same : (fun e : Entry => e.body.isEvent) ∘ Entry.coalesce k position
        = fun e => e.body.isEvent := funext (Entry.isEvent_coalesce k position)
    simpa only [Queue.EventsBounded, List.countP_map, same] using hx
  | admitted q n b room => exact Queue.eventsBounded_join_of_room room b
  | completed q n => exact hx.answered rfl

theorem QueueStep.eventsBounded {x y : Queue × Nat} (h : QueueStep x y) (hx : x.1.EventsBounded) :
    y.1.EventsBounded := by
  cases h with
  | posted h => exact h.eventsBounded hx
  | @answered q q' n m n' mask tag status data room opened h =>
    have bounded : q'.EventsBounded := h.eventsBounded (x := (q, m)) hx
    exact Queue.EventsBounded.answered (q := { q' with mask := mask }) bounded rfl
  | headRead q n r => exact hx.of_sublist (by rw [q.map_setHeadRead r Entry.body fun _ => rfl])
  | retired q n => exact hx.of_sublist ((List.tail_sublist _).map _)
  | inReset => exact Nat.zero_le _
  | restarted => exact Nat.le_add_left 1 27

/-! ## The sequence numbers -/

theorem seqRun_append_singleton {first : Byte} {l : List Entry} {e : Entry} :
    seqRun first (l ++ [e]) ↔ seqRun first l ∧ e.seq = first + BitVec.ofNat 8 l.length := by
  induction l generalizing first with
  | nil => simp [seqRun]
  | cons x rest ih =>
    have shift : first + 1 + BitVec.ofNat 8 rest.length
        = first + BitVec.ofNat 8 (x :: rest).length := by
      rw [List.length_cons]
      bv_omega
    rw [List.cons_append, seqRun, seqRun, ih, shift, and_assoc]

/-- The sequence numbers alone decide whether the entries are consecutive. -/
theorem seqRun_congr {first : Byte} {l l' : List Entry} (h : l'.map Entry.seq = l.map Entry.seq) :
    seqRun first l' ↔ seqRun first l := by
  induction l generalizing first l' with
  | nil => rw [List.map_eq_nil_iff.1 h]
  | cons e rest ih =>
    obtain ⟨e', rest', rfl, he, hr⟩ := List.map_eq_cons_iff.1 h
    rw [seqRun, seqRun, he, ih hr]

theorem Queue.SeqConsecutive.congr (h : q.SeqConsecutive) {q' : Queue}
    (hn : q'.nextSeq = q.nextSeq) (hs : q'.entries.map Entry.seq = q.entries.map Entry.seq) :
    q'.SeqConsecutive := by
  have hl : q'.entries.length = q.entries.length := by simpa using congrArg List.length hs
  rw [Queue.SeqConsecutive, hn, hl, seqRun_congr hs]
  exact h

theorem Queue.SeqConsecutive.join (h : q.SeqConsecutive) (b : Body) : (q.join b).SeqConsecutive := by
  have first : q.nextSeq + 1 - BitVec.ofNat 8 (q.entries.length + 1)
      = q.nextSeq - BitVec.ofNat 8 q.entries.length := by bv_omega
  rw [Queue.SeqConsecutive, Queue.entries_join, Queue.nextSeq_join, List.length_append,
    List.length_singleton, first]
  exact seqRun_append_singleton.2 ⟨h, (BitVec.sub_add_cancel _ _).symm⟩

theorem Queue.SeqConsecutive.retire (h : q.SeqConsecutive) : q.retire.SeqConsecutive := by
  unfold Queue.SeqConsecutive at h ⊢
  rw [Queue.entries_retire]
  cases he : q.entries with
  | nil => trivial
  | cons e rest =>
    rw [he, seqRun, List.length_cons] at h
    have first : q.nextSeq - BitVec.ofNat 8 rest.length
        = q.nextSeq - BitVec.ofNat 8 (rest.length + 1) + 1 := by bv_omega
    obtain ⟨-, behind⟩ := h
    rw [List.tail_cons, show q.retire.nextSeq = q.nextSeq from rfl, first]
    exact behind

/-! ## The read states -/

theorem Queue.OnlyHeadUnderway.join (h : q.OnlyHeadUnderway) (b : Body) :
    (q.join b).OnlyHeadUnderway := by
  intro e he
  rw [Queue.entries_join, List.tail_append] at he
  split at he
  · cases he
  · rcases List.mem_append.1 he with he | he
    · exact h e he
    · cases List.mem_singleton.1 he
      rfl

theorem Queue.OnlyHeadUnderway.coalesce (h : q.OnlyHeadUnderway) (k : KeyNo) (position : Nat) :
    { q with entries := q.entries.map (Entry.coalesce k position) }.OnlyHeadUnderway := by
  intro e he
  rw [← List.map_tail] at he
  obtain ⟨x, hx, rfl⟩ := List.mem_map.1 he
  exact (x.read_coalesce k position).trans (h x hx)

/-! ## The unsent SLIDE entries -/

theorem Queue.OneUnsentSlide.join (h : q.OneUnsentSlide) {b : Body} (hf : q.FreshFor b) :
    (q.join b).OneUnsentSlide := by
  intro k
  rw [Queue.entries_join, List.countP_append]
  by_cases hb : Entry.isQueuedSlide k { seq := q.nextSeq, body := b } = true
  · obtain ⟨-, position, hb⟩ := Entry.isQueuedSlide_iff.1 hb
    have none : q.entries.countP (Entry.isQueuedSlide k) = 0 :=
      List.countP_eq_zero.2 fun e he => Bool.eq_false_iff.1 (hf k position hb e he)
    rw [none]
    exact (Nat.zero_add _).le.trans List.countP_le_length
  · rw [List.countP_singleton, if_neg hb]
    exact h k

theorem Queue.OneUnsentSlide.coalesce (h : q.OneUnsentSlide) (k : KeyNo) (position : Nat) :
    { q with entries := q.entries.map (Entry.coalesce k position) }.OneUnsentSlide := by
  intro k'
  have same : Entry.isQueuedSlide k' ∘ Entry.coalesce k position = Entry.isQueuedSlide k' :=
    funext (Entry.isQueuedSlide_coalesce k k' position)
  rw [List.countP_map, same]
  exact h k'

theorem Queue.OneUnsentSlide.retire (h : q.OneUnsentSlide) : q.retire.OneUnsentSlide := fun k =>
  ((List.tail_sublist _).countP_le).trans (h k)

/-- A head under way has left the unsent entries. -/
theorem Queue.OneUnsentSlide.setHeadRead (h : q.OneUnsentSlide) {r : ReadState} (hr : r ≠ .queued) :
    (q.setHeadRead r).OneUnsentSlide := by
  intro k
  cases he : q.entries with
  | nil =>
    rw [Queue.setHeadRead_nil he]
    exact h k
  | cons e rest =>
    have sent : ¬ Entry.isQueuedSlide k { e with read := r } = true := fun hs =>
      hr (Entry.isQueuedSlide_iff.1 hs).1
    rw [Queue.setHeadRead_cons he, List.countP_cons_of_neg sent]
    refine le_trans ?_ (h k)
    rw [he]
    exact (List.sublist_cons_self e rest).countP_le

/-! ## The order of the queue -/

/-- The three invariants of the queue's order. -/
structure Queue.OrderKept (q : Queue) : Prop where
  seqs : q.SeqConsecutive
  reads : q.OnlyHeadUnderway
  slides : q.OneUnsentSlide

theorem Queue.OrderKept.join (h : q.OrderKept) {b : Body} (hf : q.FreshFor b) : (q.join b).OrderKept :=
  ⟨h.seqs.join b, h.reads.join b, h.slides.join hf⟩

theorem Queue.OrderKept.coalesce (h : q.OrderKept) (k : KeyNo) (position : Nat) :
    { q with entries := q.entries.map (Entry.coalesce k position) }.OrderKept := by
  refine ⟨h.seqs.congr rfl ?_, h.reads.coalesce k position, h.slides.coalesce k position⟩
  rw [List.map_map]
  exact congrArg (q.entries.map ·) (funext (Entry.seq_coalesce k position))

theorem Queue.OrderKept.setHeadRead (h : q.OrderKept) {r : ReadState} (hr : r ≠ .queued) :
    (q.setHeadRead r).OrderKept :=
  ⟨h.seqs.congr (q.nextSeq_setHeadRead r) (q.map_setHeadRead r Entry.seq fun _ => rfl),
    fun e he => h.reads e (by rwa [q.tail_setHeadRead] at he), h.slides.setHeadRead hr⟩

theorem Queue.OrderKept.retire (h : q.OrderKept) : q.retire.OrderKept :=
  ⟨h.seqs.retire, fun e he => h.reads e (List.mem_of_mem_tail he), h.slides.retire⟩

theorem Queue.orderKept_afterReset (cause : ResetCause) (tag : Option Byte) :
    (Queue.afterReset cause tag).OrderKept :=
  ⟨⟨(BitVec.sub_self 1).symm, trivial⟩, fun _ he => (nomatch he), fun _ => Nat.zero_le 1⟩

theorem Queue.orderKept_inReset : Queue.inReset.OrderKept :=
  ⟨trivial, fun _ he => (nomatch he), fun _ => Nat.zero_le 1⟩

theorem PostsAll.orderKept {x y : Queue × Nat} (h : PostsAll x y) (hx : x.1.OrderKept) :
    y.1.OrderKept := by
  refine h.keeps (p := fun x => x.1.OrderKept) (fun x y one hx => ?_) hx
  cases one with
  | counted => exact ⟨hx.seqs, hx.reads, hx.slides⟩
  | coalesced q n k position => exact hx.coalesce k position
  | admitted q n b _ fresh => exact hx.join fresh
  | completed q n => exact hx.join fun _ _ hb => nomatch hb

theorem QueueStep.orderKept {x y : Queue × Nat} (h : QueueStep x y) (hx : x.1.OrderKept) :
    y.1.OrderKept := by
  cases h with
  | posted h => exact h.orderKept hx
  | @answered q q' n m n' mask tag status data room opened h =>
    obtain ⟨seqs, reads, slides⟩ : q'.OrderKept := h.orderKept (x := (q, m)) hx
    exact Queue.OrderKept.join (q := { q' with mask := mask }) ⟨seqs, reads, slides⟩
      fun _ _ hb => nomatch hb
  | headRead q n r hr => exact hx.setHeadRead hr
  | retired => exact hx.retire
  | inReset => exact Queue.orderKept_inReset
  | restarted _ cause tag => exact Queue.orderKept_afterReset cause tag

end

end Sys2Proof.Machine

namespace Sys2Proof

open Machine

/-- Settles O54: the room that one step takes, and the events among its entries. -/
theorem roomIsKept : Obligations.RoomIsKept := by
  intro s t room events hs
  have queueStep := step_queueStep hs
  exact ⟨queueStep.roomTaken_le room, queueStep.eventsBounded events⟩

/-- Settles O55: the order of the queue through the changes that one step makes to it. -/
theorem queueOrderIsKept : Obligations.QueueOrderIsKept := by
  intro s t seqs reads slides hs
  obtain ⟨seqs', reads', slides'⟩ := (step_queueStep hs).orderKept ⟨seqs, reads, slides⟩
  exact ⟨seqs', reads', slides'⟩

end Sys2Proof
end

section
/-! The offer of an event (O53): masked, folded into the unsent SLIDE of its key, admitted behind an OVERRUN,
or dropped and counted. -/

namespace Sys2Proof.Machine

section
variable {s : State} {q : Queue} {n : Nat} {b : Body} {k : KeyNo} {e : Entry}
  {before after : List Entry}

theorem Queue.offer_masked (h : q.masked b = true) : q.offer n b = q := by
  unfold Queue.offer
  rw [if_pos h]

/-- An event that folds into no SLIDE is judged against the room. -/
theorem Queue.offer_fresh (hm : q.masked b = false) (hf : q.FreshFor b) :
    q.offer n b = q.admitEvent n b := by
  unfold Queue.offer
  rw [if_neg (by rw [hm]; decide)]
  split
  · rename_i k position
    refine if_neg fun held => ?_
    obtain ⟨e, he, hs⟩ := List.any_eq_true.1 held
    rw [hf k position rfl e he] at hs
    cases hs
  · rfl

/-- The offer of a SLIDE whose key has one unsent SLIDE changes that entry alone (R139). -/
theorem Queue.offer_held {position : Nat} (hm : q.masked (.slide k position) = false)
    (hq : q.entries = before ++ e :: after) (he : e.isQueuedSlide k = true)
    (others : ∀ e' ∈ before ++ after, e'.isQueuedSlide k = false) :
    q.offer n (.slide k position)
      = { q with entries := before ++ { e with body := .slide k position } :: after } := by
  have keep : ∀ l : List Entry, (∀ e' ∈ l, e'.isQueuedSlide k = false) →
      l.map (Entry.coalesce k position) = l := fun l hl =>
    (List.map_congr_left fun e' he' => Entry.coalesce_of_not (hl e' he')).trans (List.map_id l)
  have held : q.entries.any (Entry.isQueuedSlide k) = true :=
    List.any_eq_true.2 ⟨e, by simp [hq], he⟩
  unfold Queue.offer
  rw [if_neg (by rw [hm]; decide)]
  dsimp only
  rw [if_pos held, hq, List.map_append, List.map_cons,
    keep before fun e' h => others e' (List.mem_append_left _ h),
    keep after fun e' h => others e' (List.mem_append_right _ h), Entry.coalesce_of_queued he]

/-! ## The room for events (R134, R135) -/

theorem State.admits (room : s.load < 28) (lossless : s.queue.lost = 0) :
    s.queue.admitEvent s.table.length b = (s.afterAdmit b).queue := by
  unfold Queue.admitEvent
  rw [if_pos (show s.queue.entries.length + s.table.length < 28 from room),
    if_neg (by rw [lossless]; decide)]
  rfl

/-- With room for two, the event stands behind the OVERRUN. -/
theorem State.admits_behind_overrun (room : s.load < 27) (lost : 0 < s.queue.lost) :
    s.queue.admitEvent s.table.length b
      = (({ s with queue := { s.queue with lost := 0 } }.afterAdmit
          (.overrun s.queue.lost)).afterAdmit b).queue := by
  have room' : s.queue.entries.length + s.table.length < 27 := room
  unfold Queue.admitEvent
  rw [if_pos (room'.trans (by decide)), if_pos lost]
  dsimp only
  rw [if_pos (by simp; omega)]
  rfl

/-- With room for one, the OVERRUN takes it. -/
theorem State.admits_overrun_alone (room : s.load = 27) (lost : 0 < s.queue.lost) :
    s.queue.admitEvent s.table.length b
      = ({ s with queue := { s.queue with lost := 1 } }.afterAdmit (.overrun s.queue.lost)).queue := by
  have room' : s.queue.entries.length + s.table.length = 27 := room
  unfold Queue.admitEvent
  rw [if_pos (by omega), if_pos lost]
  dsimp only
  rw [if_neg (by simp; omega)]
  rfl

theorem State.drops (full : 28 ≤ s.load) :
    s.queue.admitEvent s.table.length b = { s.queue with lost := min 255 (s.queue.lost + 1) } := by
  unfold Queue.admitEvent
  rw [if_neg (show ¬ s.queue.entries.length + s.table.length < 28 from Nat.not_lt.2 full)]
  rfl

/-- An offer writes the queue alone. -/
theorem State.post_eq {t : State} (h : s.queue.offer s.table.length b = t.queue)
    (frame : { s with queue := t.queue } = t) : s.post b = t := by
  rw [← frame, ← h]
  rfl

end

end Sys2Proof.Machine

namespace Sys2Proof

open Machine

/-- Settles O53, by what the queue holds and the room it has. -/
theorem offersFollowTheAdmissionRule : Obligations.OffersFollowTheAdmissionRule := by
  intro s b enabled unsent
  have mask : s.queue.masked b = !enabled := by cases b <;> rfl
  have sent : ∀ {k e}, ¬ unsent k e → e.isQueuedSlide k = false := fun h =>
    Bool.eq_false_iff.2 fun hs => h (Entry.isQueuedSlide_iff.1 hs)
  refine ⟨fun masked => ?_, fun k position before e after on hb hq he others => ?_,
    fun on fresh => ?_⟩
  · exact State.post_eq (Queue.offer_masked (by rw [mask, masked]; rfl)) rfl
  · rw [on] at mask
    subst hb
    exact congrArg (fun q => { s with queue := q }) (Queue.offer_held mask hq
      (Entry.isQueuedSlide_iff.2 he) fun e' h => sent (others e' h))
  · rw [on] at mask
    have judged : s.queue.offer s.table.length b = s.queue.admitEvent s.table.length b :=
      Queue.offer_fresh mask fun k position hb e he => sent (fresh k position hb e he)
    exact ⟨fun room lossless => State.post_eq (judged.trans (State.admits room lossless)) rfl,
      fun room lost => State.post_eq (judged.trans (State.admits_behind_overrun room lost)) rfl,
      fun room lost => State.post_eq (judged.trans (State.admits_overrun_alone room lost)) rfl,
      fun full => congrArg (fun q => { s with queue := q }) (judged.trans (State.drops full))⟩

end Sys2Proof
end

section
/-! The events of a read (O27) and the ends of transactions (O28): what the address, the first bit of FLAGS
and the last bit of the CRC do to the transmission and the queue, and what a STOP, a repeated START and the
bus timeout leave. -/

namespace Sys2Proof.Machine

section
variable {s : State} {q : Queue} {e : Entry} {rest : List Entry} {tr : Transmission} {w : WriteRecord}

/-! ## The transmission (R140, R141) -/

theorem flagsByte_eq (resent more : Bool) :
    flagsByte resent more = (if resent then 1 else 0) + (if more then 2 else 0) := by
  cases resent <;> cases more <;> rfl

theorem flagsByte_bits (resent more : Bool) :
    (flagsByte resent more).getLsbD 0 = resent ∧ (flagsByte resent more).getLsbD 1 = more
      ∧ (flagsByte resent more).toNat < 4 := by
  cases resent <;> cases more <;> decide

/-- A whole frame, as the statements write it (R162). -/
theorem frameBytes_flagsByte (kind seq : Byte) (resent more : Bool) (body : List Byte) :
    frameBytes kind seq (flagsByte resent more) body = sentFrame kind seq resent more body := by
  rw [flagsByte_eq]
  rfl

theorem Queue.transmission_cons (h : q.entries = e :: rest) :
    q.transmission
      = { ofHead := true, resent := e.read == .resent, flags := none
          frame := [BitVec.ofNat 8 (4 + e.body.bytes.length), e.body.kindCode, e.seq]
          retired := false } := by
  simp only [Queue.transmission, Queue.outgoing, h]
  rfl

theorem Queue.transmission_nil (h : q.entries = []) :
    q.transmission
      = { ofHead := false, resent := false, flags := none, frame := [4, 0x00, q.nextSeq - 1]
          retired := false } := by
  simp only [Queue.transmission, Queue.outgoing, h]
  rfl

/-- With FLAGS fixed, a transmission of the head holds the head's frame. -/
theorem Transmission.settle_head (ho : tr.ofHead = true) (h : q.entries = e :: rest) :
    tr.settle q
      = { tr with
          flags := some (flagsByte tr.resent (decide (rest ≠ [])))
          frame := sentFrame e.body.kindCode e.seq tr.resent (decide (rest ≠ [])) e.body.bytes } := by
  have more : decide (1 < q.entries.length) = decide (rest ≠ []) := by
    rw [h]
    cases rest <;> simp
  rw [Transmission.settle, if_pos ho, more]
  simp only [Queue.outgoing, h, frameBytes_flagsByte]

/-- With FLAGS fixed, a transmission of no head holds a NONE frame. -/
theorem Transmission.settle_none (ho : tr.ofHead = false) :
    tr.settle q
      = { tr with
          flags := some 0
          frame := sentFrame 0x00 (tr.frame.getD 2 0) false false [] } := by
  rw [Transmission.settle, if_neg (by rw [ho]; decide), frameBytes_flagsByte]
  rfl

/-! ## The events of a read -/

theorem exec_readAddress (hr : s.inReset = none) (ht : s.link.transaction = .none) :
    exec (.readAddress s.link.address) s
      = .next
        { s with
          link := { s.link with
            transaction := .read s.queue.transmission, ack := true, busTimer := some 25 }
          queue := s.queue.setHeadRead .sending } := by
  simp [exec, execReadAddress, State.readAddress, hr, ht, LinkPort.edge, busTimeoutMs]

theorem exec_readAddress_other (hr : s.inReset = none) (ht : s.link.transaction = .none)
    {address : BitVec 7} (ha : address ≠ s.link.address) :
    exec (.readAddress address) s = .next { s with link := { s.link with ack := false } } := by
  simp [exec, execReadAddress, State.readAddress, hr, ht, ha, State.withLink]

theorem exec_flagsByteStart (ht : s.link.transaction = .read tr) (hf : tr.flags = none) :
    exec .flagsByteStart s
      = .next
        { s with
          link := { s.link with
            transaction := .read (tr.settle s.queue), busTimer := some 25 } } := by
  simp [exec, execFlagsByteStart, State.flagsByteStart, ht, hf, State.withLink, LinkPort.edge,
    busTimeoutMs]

/-- The last bit of the CRC byte of the head (R143). -/
theorem exec_headRetire_head (ht : s.link.transaction = .read tr) (ho : tr.ofHead = true)
    (hf : tr.flags.isSome = true) (hn : tr.retired = false) :
    exec .headRetire s
      = .next
        { s with
          link := { s.link with
            transaction := .read { tr with retired := true }, busTimer := some 25 }
          queue := { s.queue with entries := s.queue.entries.tail } } := by
  simp [exec, execHeadRetire, State.headRetire, ht, ho, hn, Transmission.settleOnce, hf,
    LinkPort.edge, busTimeoutMs, Queue.retire]

/-- A NONE frame retires nothing (R143). -/
theorem exec_headRetire_none (ht : s.link.transaction = .read tr) (ho : tr.ofHead = false) :
    exec .headRetire s = .next s := by
  simp [exec, execHeadRetire, State.headRetire, ht, ho]

/-! ## The ends of transactions -/

/-- The commands that end a transaction (R157, R158). -/
def EndsTransaction (c : Instr) : Prop :=
  c = .transactionEnd .stop ∨ c = .transactionEnd .repeatedStart ∨ c = .busTimeout

/-- With no transaction the port leaves SDA to the host. -/
theorem State.drivesSda_of_none (h : s.link.transaction = .none) : s.drivesSda = false := by
  unfold State.drivesSda State.busRole
  rw [h]
  cases s.bus.role <;> rfl

variable {c : Instr}

/-- A STOP and a repeated START are taken alike (R157). -/
theorem EndsTransaction.kinds (hc : EndsTransaction c) :
    (∃ kind, c = .transactionEnd kind) ∨ c = .busTimeout := by
  rcases hc with rfl | rfl | rfl
  · exact .inl ⟨_, rfl⟩
  · exact .inl ⟨_, rfl⟩
  · exact .inr rfl

theorem exec_end_idle (hc : EndsTransaction c) (ht : s.link.transaction = .none) : exec c s = .next s := by
  obtain ⟨kind, rfl⟩ | rfl := hc.kinds
  · simp [exec, execTransactionEnd, State.transactionEnd, ht]
  · simp [exec, execBusTimeout, State.busTimeout, ht]

theorem exec_end_read (hc : EndsTransaction c) (ht : s.link.transaction = .read tr) :
    exec c s = .next (s.endRead tr) := by
  obtain ⟨kind, rfl⟩ | rfl := hc.kinds
  · simp [exec, execTransactionEnd, State.transactionEnd, ht]
  · simp [exec, execBusTimeout, State.busTimeout, ht]

/-- A head that was not retired waits to be sent again (R142). -/
theorem State.endRead_unretired (ho : tr.ofHead = true) (hn : tr.retired = false)
    (hq : s.queue.entries = e :: rest) :
    s.endRead tr
      = { s with
          link := { s.link with transaction := .none, busTimer := none }
          queue := { s.queue with entries := { e with read := .resent } :: rest } } := by
  unfold State.endRead
  dsimp only
  rw [if_pos (by simp [ho, hn]), Queue.setHeadRead_cons hq]
  rfl

/-- A retired head and a NONE frame leave the queue (R143). -/
theorem State.endRead_done (h : tr.ofHead = false ∨ tr.retired = true) :
    s.endRead tr = { s with link := { s.link with transaction := .none, busTimer := none } } := by
  unfold State.endRead
  dsimp only
  rw [if_neg (by rcases h with h | h <;> simp [h])]
  rfl

theorem State.endRead_transaction (s : State) (tr : Transmission) :
    (s.endRead tr).link.transaction = .none := by
  unfold State.endRead
  dsimp only
  split <;> rfl

theorem State.judgeWrite_transaction (s : State) (w : WriteRecord) :
    (s.judgeWrite w).link.transaction = .none := by
  unfold State.judgeWrite
  dsimp only
  repeat' split
  all_goals rfl

theorem exec_busTimeout_write (ht : s.link.transaction = .write w) :
    exec .busTimeout s
      = .next
        (if w.refused then { s with link := { s.link with transaction := .none, busTimer := none } }
        else
          { s with
            link := { s.link.setSlot w.slot .empty with transaction := .none, busTimer := none }
            queue := s.queue.offer s.table.length (.link .short w.tag) }) := by
  simp only [exec, execBusTimeout, State.busTimeout, ht]
  rfl

/-- No transaction is left by the commands that end one. -/
theorem exec_end_transaction (hc : EndsTransaction c) :
    ∃ t, exec c s = .next t ∧ t.link.transaction = .none := by
  cases ht : s.link.transaction with
  | none => exact ⟨s, exec_end_idle hc ht, ht⟩
  | read tr => exact ⟨_, exec_end_read hc ht, s.endRead_transaction tr⟩
  | write w =>
    obtain ⟨kind, rfl⟩ | rfl := hc.kinds
    · simp only [exec, execTransactionEnd, State.transactionEnd, ht]
      refine ⟨_, rfl, ?_⟩
      split
      · rfl
      · exact s.judgeWrite_transaction w
    · exact ⟨_, exec_busTimeout_write ht, by split <;> rfl⟩

end

end Sys2Proof.Machine

namespace Sys2Proof

open Machine

/-- Settles O27, event by event. -/
theorem readEventsFollowTheHead : Obligations.ReadEventsFollowTheHead := by
  intro s
  refine ⟨fun hr ht => ⟨fun e rest hq => ?_, fun hq => ?_, fun address ha =>
    exec_readAddress_other hr ht ha⟩, fun tr ht => ⟨fun e rest hq ho hf => ?_, fun seq ho hf hs => ?_,
    fun flags ho hf hn => ?_, fun ho => exec_headRetire_none ht ho⟩⟩
  · rw [exec_readAddress hr ht, Queue.transmission_cons hq, Queue.setHeadRead_cons hq]
  · rw [exec_readAddress hr ht, Queue.transmission_nil hq, Queue.setHeadRead_nil hq]
  · refine ⟨flagsByte tr.resent (decide (rest ≠ [])), ?_, flagsByte_bits _ _⟩
    rw [exec_flagsByteStart ht hf, Transmission.settle_head ho hq]
  · rw [exec_flagsByteStart ht hf, Transmission.settle_none ho, hs]
    rfl
  · exact exec_headRetire_head ht ho (by rw [hf]; rfl) hn

/-- Settles O28, by the record of the transaction that ends. -/
theorem endsAndTimeoutsOfTransactions : Obligations.EndsAndTimeoutsOfTransactions := by
  intro s c hc
  refine ⟨exec_end_idle hc, ?_, fun tr e rest ht ho hn hq => ?_, fun tr ht h => ?_,
    fun w ht hb => hb ▸ exec_busTimeout_write ht⟩
  · obtain ⟨t, he, ht⟩ := exec_end_transaction (s := s) hc
    exact ⟨t, he, State.drivesSda_of_none ht⟩
  · rw [exec_end_read hc ht, State.endRead_unretired ho hn hq]
  · rw [exec_end_read hc ht, State.endRead_done h]

end Sys2Proof
end

section
/-! A whole read (O29). `s.readingAfter i` is the state in which `i` bytes of a read that began in `s` have gone
out; one byte leads to the next such state, at the lines as by the commands, and FLAGS is fixed before byte
3 and the head retired with the last byte of the frame. -/

namespace Sys2Proof.Machine

/-! ## The CRC over a whole frame (R160) -/

theorem crc_append_self (bytes : List Byte) : crc (bytes ++ [crc bytes]) = 0 := by
  have zero : crcShift 0#8 = 0#8 := by decide
  have last : ∀ r : Byte, crcByte r r = 0#8 := fun r => by
    simp only [crcByte, BitVec.xor_self, zero]
  rw [crc, List.foldl_append]
  exact last (crc bytes)

theorem crc_sentFrame (kind seq : Byte) (resent more : Bool) (body : List Byte) :
    crc (sentFrame kind seq resent more body) = 0 := crc_append_self _

theorem sentFrame_length (kind seq : Byte) (resent more : Bool) (body : List Byte) :
    (sentFrame kind seq resent more body).length = body.length + 5 := by
  simp [sentFrame]

/-! ## The states of a read -/

section
variable {s : State}

theorem State.readFrame_cons {e : Entry} {rest : List Entry} (h : s.queue.entries = e :: rest) :
    s.readFrame
      = sentFrame e.body.kindCode e.seq (e.read == .resent) (decide (rest ≠ [])) e.body.bytes := by
  unfold State.readFrame
  rw [h]

theorem State.readFrame_nil (h : s.queue.entries = []) :
    s.readFrame = sentFrame 0x00 (s.queue.nextSeq - 1) false false [] := by
  unfold State.readFrame
  rw [h]

/-- A frame has at least LEN, KIND, SEQ, FLAGS and the CRC (R162). -/
theorem State.five_le_readFrame (s : State) : 5 ≤ s.readFrame.length := by
  unfold State.readFrame
  split <;> rw [sentFrame_length] <;> exact Nat.le_add_left 5 _

/-- The transmission of a read that begins in `s`, with FLAGS fixed (R141). -/
def State.settled (s : State) : Transmission :=
  s.queue.transmission.settle (s.queue.setHeadRead .sending)

/-- With FLAGS fixed the transmission holds the frame that the read carries. -/
theorem State.settled_keeps (s : State) :
    s.settled.frame = s.readFrame ∧ s.settled.flags.isSome = true
      ∧ s.settled.ofHead = !s.queue.entries.isEmpty ∧ s.settled.retired = false := by
  unfold State.settled
  cases hq : s.queue.entries with
  | nil =>
    rw [Queue.transmission_nil hq, Transmission.settle_none rfl, State.readFrame_nil hq]
    exact ⟨rfl, rfl, rfl, rfl⟩
  | cons e rest =>
    rw [Queue.transmission_cons hq, Transmission.settle_head rfl
      (congrArg Queue.entries (Queue.setHeadRead_cons hq .sending)), State.readFrame_cons hq]
    exact ⟨rfl, rfl, rfl, rfl⟩

/-- The first bytes go out before FLAGS is fixed (R140). -/
theorem State.sentByte_transmission {i : Nat} (hi : i < 3) :
    s.queue.transmission.sentByte i = s.readFrame.getD i 0xFF := by
  cases hq : s.queue.entries with
  | nil =>
    rw [Queue.transmission_nil hq, State.readFrame_nil hq]
    interval_cases i <;> rfl
  | cons e rest =>
    rw [Queue.transmission_cons hq, State.readFrame_cons hq]
    interval_cases i <;> rfl

/-- The transmission once `i` bytes of the read have gone out. -/
def State.sentAfter (s : State) (i : Nat) : Transmission :=
  if i ≤ 3 then s.queue.transmission
  else { s.settled with retired := s.settled.ofHead && decide (s.readFrame.length ≤ i) }

/-- The link port once `i` bytes of the read have gone out. -/
def State.linkAfter (s : State) (i : Nat) : LinkPort :=
  { s.link with transaction := .read (s.sentAfter i), ack := true, busTimer := some 25 }

/-- The queue once `i` bytes of the read have gone out. -/
def State.queueAfter (s : State) (i : Nat) : Queue :=
  if s.readFrame.length ≤ i then { s.queue with entries := s.queue.entries.tail }
  else s.queue.setHeadRead .sending

/-- The state once `i` bytes of a read that began in `s` have gone out. -/
def State.readingAfter (s : State) (i : Nat) : State :=
  { s with link := s.linkAfter i, queue := s.queueAfter i }

/-- The state of a read changes as FLAGS is fixed and as the last byte goes out, and at no other byte. -/
theorem State.readingAfter_congr {i j : Nat} (h3 : i ≤ 3 ↔ j ≤ 3)
    (hf : s.readFrame.length ≤ i ↔ s.readFrame.length ≤ j) : s.readingAfter i = s.readingAfter j := by
  simp only [State.readingAfter, State.linkAfter, State.sentAfter, State.queueAfter, h3, hf]

theorem State.linkAfter_clocked (s : State) (i : Nat) : (s.linkAfter i).clocked = s.linkAfter i := by
  simp [LinkPort.clocked, LinkPort.edge, State.linkAfter, busTimeoutMs]

/-- The frame of which byte `i` is taken, once FLAGS is fixed before byte 3. -/
theorem State.sentByte_sentAfter (s : State) (i : Nat) :
    (s.sentAfter (if i = 3 then 4 else i)).sentByte i = s.readFrame.getD i 0xFF := by
  obtain ⟨frame, -⟩ := s.settled_keeps
  unfold State.sentAfter
  by_cases hi : i < 3
  · rw [if_pos (by split <;> omega), State.sentByte_transmission hi]
  · rw [if_neg (by split <;> omega), Transmission.sentByte, frame]

/-- The last byte of the frame is its CRC (R143). -/
theorem State.isCrc_sentAfter (s : State) (i : Nat) :
    (s.sentAfter (if i = 3 then 4 else i)).isCrc i = decide (s.readFrame.length = i + 1) := by
  have five := s.five_le_readFrame
  obtain ⟨frame, flags, -, -⟩ := s.settled_keeps
  unfold State.sentAfter
  by_cases hi : i < 3
  · rw [if_pos (by split <;> omega), decide_eq_false (by omega)]
    rfl
  · rw [if_neg (by split <;> omega)]
    simp only [Transmission.isCrc, flags, frame, Bool.true_and]

/-! ## The events of the read -/

theorem exec_readAddress_begins (hr : s.inReset = none) (ht : s.link.transaction = .none) :
    exec (.readAddress s.link.address) s = .next (s.readingAfter 0) := by
  have five := s.five_le_readFrame
  have queue : s.queueAfter 0 = s.queue.setHeadRead .sending := if_neg (by omega)
  rw [exec_readAddress hr ht, State.readingAfter, queue]
  rfl

theorem exec_flagsByteStart_reading (s : State) :
    exec .flagsByteStart (s.readingAfter 3) = .next (s.readingAfter 4) := by
  have five := s.five_le_readFrame
  obtain ⟨-, -, -, unretired⟩ := s.settled_keeps
  have before : s.queueAfter 3 = s.queue.setHeadRead .sending := if_neg (by omega)
  have after : s.queueAfter 4 = s.queue.setHeadRead .sending := if_neg (by omega)
  have sent : s.sentAfter 4 = s.settled := by
    rw [State.sentAfter, if_neg (by decide), decide_eq_false (by omega), Bool.and_false, ← unretired]
  rw [exec_flagsByteStart (tr := s.queue.transmission) rfl rfl]
  simp only [State.readingAfter, State.linkAfter, before, after, sent]
  rfl

/-- The last bit of the frame retires the head, and of a NONE frame nothing (R143). -/
theorem exec_headRetire_reading {i : Nat} (hi : s.readFrame.length = i + 1) :
    exec .headRetire (s.readingAfter i) = .next (s.readingAfter (i + 1)) := by
  have five := s.five_le_readFrame
  obtain ⟨-, flags, head, -⟩ := s.settled_keeps
  have before : s.sentAfter i = { s.settled with retired := false } := by
    rw [State.sentAfter, if_neg (by omega), decide_eq_false (by omega), Bool.and_false]
  have after : s.sentAfter (i + 1) = { s.settled with retired := s.settled.ofHead } := by
    rw [State.sentAfter, if_neg (by omega), decide_eq_true hi.le, Bool.and_true]
  have sending : s.queueAfter i = s.queue.setHeadRead .sending := if_neg (by omega)
  have retired : s.queueAfter (i + 1) = { s.queue with entries := s.queue.entries.tail } :=
    if_pos hi.le
  have read : (s.readingAfter i).link.transaction = .read { s.settled with retired := false } :=
    congrArg Transaction.read before
  cases hq : s.queue.entries with
  | nil =>
    rw [hq] at head retired
    have same : s.queueAfter (i + 1) = s.queueAfter i := by
      rw [retired, sending, Queue.setHeadRead_nil hq, List.tail_nil, ← hq]
    have kept : s.readingAfter (i + 1) = s.readingAfter i := by
      simp only [State.readingAfter, State.linkAfter, before, after, same, head]
      rfl
    rw [kept]
    exact exec_headRetire_none read head
  | cons e rest =>
    rw [hq] at head
    rw [exec_headRetire_head read head flags rfl]
    simp only [State.readingAfter, State.linkAfter, after, sending, retired, head,
      Queue.setHeadRead_cons hq, hq]
    rfl

/-- After the last byte of the frame the end of the transaction leaves the queue (R143, R157). -/
theorem exec_transactionEnd_reading {i : Nat} (hi : s.readFrame.length ≤ i) (kind : EndKind) :
    exec (.transactionEnd kind) (s.readingAfter i)
      = .next
        { s with
          link := { s.link with transaction := .none, busTimer := none, ack := true }
          queue := { s.queue with entries := s.queue.entries.tail } } := by
  have five := s.five_le_readFrame
  have done : (s.sentAfter i).ofHead = false ∨ (s.sentAfter i).retired = true := by
    rw [State.sentAfter, if_neg (by omega), decide_eq_true hi, Bool.and_true]
    exact (Bool.eq_false_or_eq_true _).symm
  have queue : s.queueAfter i = { s.queue with entries := s.queue.entries.tail } := if_pos hi
  have ends : EndsTransaction (.transactionEnd kind) := by
    cases kind
    · exact .inl rfl
    · exact .inr (.inl rfl)
  rw [exec_end_read (tr := s.sentAfter i) ends rfl, State.endRead_done done]
  simp only [State.readingAfter, State.linkAfter, queue]

/-! ## The read at the lines -/

/-- What the port does with the byte on the bus once `i` bytes have gone out. -/
def roleAfter : Nat → BusRole
  | 0 => .address
  | i + 1 => .sending i

theorem State.nextRole_readingAfter (s : State) (i : Nat) (b : Bus) (xs : List LineChange)
    (cs : List Instr) (hb : b.role = roleAfter i) :
    ((s.readingAfter i).onLines (s.linkAfter i) b xs cs).nextRole = .sending i := by
  cases i <;> simp [State.nextRole, State.busRole, State.onLines, State.linkAfter, hb, roleAfter]

/-- One byte of the read at the lines. -/
theorem State.hears_byte (hr : s.inReset = none) (i : Nat) {st : Bool} {bs : List Bool}
    (hb : bs.length = 9) (rest : List LineChange) :
    ((s.readingAfter i).onLines (s.linkAfter i) ⟨true, true, st, roleAfter i, bs⟩
        (clockByte 0xFF ++ rest) []).Hears
      (bitsOfByte (s.readFrame.getD i 0xFF) ++ [true])
      ((s.readingAfter (i + 1)).onLines (s.linkAfter (i + 1))
        ⟨true, true, st, roleAfter (i + 1), bitsOfByte (s.readFrame.getD i 0xFF) ++ [true]⟩ rest
        []) := by
  have five := s.five_le_readFrame
  rw [← s.sentByte_sentAfter i]
  refine send_byte (s := s.readingAfter i) (s1 := s.readingAfter (if i = 3 then 4 else i))
    (l1 := s.linkAfter (if i = 3 then 4 else i)) (tr := s.sentAfter (if i = 3 then 4 else i))
    (s2 := s.readingAfter (i + 1)) (l2 := s.linkAfter (i + 1)) (tr2 := s.sentAfter (i + 1))
    hr (s.linkAfter_clocked i) hr hr (s.nextRole_readingAfter i) ?_ rfl (s.linkAfter_clocked _) ?_ rfl
    (s.linkAfter_clocked _) hb rest (.done _)
  · split
    · rename_i hi
      subst hi
      exact fun B X => exec_flagsByteStart_reading (s.onLines s.link B X [])
    · exact ⟨rfl, rfl⟩
  · rw [s.isCrc_sentAfter i]
    split <;> rename_i last
    · have last := of_decide_eq_true last
      rw [if_neg (by omega)]
      exact fun B X => exec_headRetire_reading (s := s.onLines s.link B X []) last
    · have inner : s.readFrame.length ≠ i + 1 := fun h => last (decide_eq_true h)
      have same : s.readingAfter (i + 1) = s.readingAfter (if i = 3 then 4 else i) :=
        State.readingAfter_congr (by split <;> omega) (by split <;> omega)
      exact ⟨same, congrArg State.link same⟩

/-- Any number of bytes of the read at the lines. -/
theorem State.hears_bytes (hr : s.inReset = none) {st : Bool} {bs : List Bool} (hb : bs.length = 9)
    (n : Nat) (rest : List LineChange) :
    ∃ bs', bs'.length = 9 ∧
      ((s.readingAfter 0).onLines (s.linkAfter 0) ⟨true, true, st, .address, bs⟩
          ((List.replicate n (clockByte 0xFF)).flatten ++ rest) []).Hears
        ((List.range n).flatMap fun i => bitsOfByte (s.readFrame.getD i 0xFF) ++ [true])
        ((s.readingAfter n).onLines (s.linkAfter n) ⟨true, true, st, roleAfter n, bs'⟩ rest []) := by
  induction n generalizing rest with
  | zero => exact ⟨bs, hb, .done _⟩
  | succ n ih =>
    obtain ⟨bs', hb', run⟩ := ih (clockByte 0xFF ++ rest)
    refine ⟨bitsOfByte (s.readFrame.getD n 0xFF) ++ [true], by simp [bitsOfByte], ?_⟩
    rw [List.replicate_succ', List.flatten_append, List.flatten_singleton, List.append_assoc,
      List.range_succ, List.flatMap_append, List.flatMap_singleton]
    exact run.trans (State.hears_byte hr n hb' rest)

/-- A START, the address with the direction bit 1, and any number of bytes of the read. -/
theorem State.hears_read (hr : s.inReset = none) (ht : s.link.transaction = .none)
    (hp : s.pending = []) (hc : s.bus.scl = true) (hs : s.bus.sda = true) (n : Nat)
    (rest : List LineChange) :
    ∃ bs, bs.length = 9 ∧
      State.Hears
        { s with
          lines := startLines ++ (clockByte (addressByte s.link.address true)
            ++ ((List.replicate n (clockByte 0xFF)).flatten ++ rest)) }
        ((bitsOfByte (addressByte s.link.address true) ++ [false])
          ++ (List.range n).flatMap fun i => bitsOfByte (s.readFrame.getD i 0xFF) ++ [true])
        ((s.readingAfter n).onLines (s.linkAfter n) ⟨true, true, true, roleAfter n, bs⟩ rest []) := by
  obtain ⟨bs, hb, run⟩ := State.hears_bytes hr
    (bs := bitsOfByte (addressByte s.link.address true) ++ [false]) (st := true)
    (by simp [bitsOfByte]) n rest
  refine ⟨bs, hb, start_lines hp hr ht hc hs _ ?_⟩
  rw [List.append_assoc]
  exact address_byte (a := s.link.address) (read := true) (s' := s.readingAfter 0)
    (l' := s.linkAfter 0) (d := true) hr hr ht (s.linkAfter_clocked 0) rfl
    (fun B X => exec_readAddress_begins (s := s.onLines s.link B X []) hr ht) rfl _ run

/-- After the frame the port sends the filler, which leaves SDA to the host (R156). -/
theorem State.drivesSda_filler {i : Nat} (hi : s.readFrame.length ≤ i) (b : Bus)
    (xs : List LineChange) (cs : List Instr) (hb : b.role = .sending i) :
    ((s.readingAfter i).onLines (s.linkAfter i) b xs cs).drivesSda = false := by
  have five := s.five_le_readFrame
  have filler : (s.sentAfter i).sentByte i = 0xFF := by
    have sent := s.sentByte_sentAfter i
    rwa [if_neg (by omega), List.getD_eq_default _ _ hi] at sent
  have ones : ∀ p < 8, (0xFF : Byte).getMsbD p = true := by decide
  simp only [State.drivesSda, State.busRole, State.onLines, State.linkAfter, hb, filler,
    Bool.and_eq_false_imp, Bool.not_eq_false']
  exact fun h => ones _ (of_decide_eq_true h)

/-- A STOP or a repeated START after the last byte of the frame. -/
theorem State.hears_end (hr : s.inReset = none) (hp : s.pending = []) {n : Nat}
    (hn : s.readFrame.length ≤ n) (kind : EndKind) {bs : List Bool} (hb : bs.length = 9) :
    ((s.readingAfter n).onLines (s.linkAfter n) ⟨true, true, true, roleAfter n, bs⟩ (endLines kind)
        []).Hears [kind == .repeatedStart]
      { s with
        link := { s.link with transaction := .none, busTimer := none, ack := true }
        bus := busAfter kind
        lines := []
        queue := { s.queue with entries := s.queue.entries.tail } } := by
  have five := s.five_le_readFrame
  have ended := end_lines (s := s.readingAfter n)
    (s' := { s with
      link := { s.link with transaction := .none, busTimer := none, ack := true }
      queue := { s.queue with entries := s.queue.entries.tail } })
    (kind := kind) (r' := .sending n) (h := true) hr (s.linkAfter_clocked n)
    (s.nextRole_readingAfter n) (by simp; omega)
    (fun b xs cs hb _ => State.drivesSda_filler hn b xs cs hb)
    (fun b xs cs hb => by simp [State.busRole, State.onLines, State.linkAfter, hb]) (by simp)
    (fun B X => exec_transactionEnd_reading (s := s.onLines s.link B X []) hn kind) rfl hb
  cases s
  cases hp
  exact ended

/-! ## The read by commands -/

theorem runAll_cons {c : Instr} {cs : List Instr} {t : State} (h : exec c s = .next t) :
    runAll (c :: cs) s = runAll cs t := by
  rw [runAll, h]

/-- The address and the first bit of FLAGS. -/
theorem runAll_flags (hr : s.inReset = none) (ht : s.link.transaction = .none) (cs : List Instr) :
    runAll (.readAddress s.link.address :: .flagsByteStart :: cs) s
      = runAll cs (s.readingAfter 4) := by
  have five := s.five_le_readFrame
  have begun : s.readingAfter 0 = s.readingAfter 3 :=
    State.readingAfter_congr (by decide) (by omega)
  rw [runAll_cons (exec_readAddress_begins hr ht), begun, runAll_cons (exec_flagsByteStart_reading s)]

/-- The last bit of the CRC and the end of the transaction. -/
theorem runAll_retire (s : State) (kind : EndKind) :
    runAll [.headRetire, .transactionEnd kind] (s.readingAfter 4)
      = some
        { s with
          link := { s.link with transaction := .none, busTimer := none, ack := true }
          queue := { s.queue with entries := s.queue.entries.tail } } := by
  have five := s.five_le_readFrame
  obtain ⟨last, hl⟩ : ∃ last, s.readFrame.length = last + 1 := ⟨s.readFrame.length - 1, by omega⟩
  have body : s.readingAfter 4 = s.readingAfter last :=
    State.readingAfter_congr (by omega) (by omega)
  rw [body, runAll_cons (exec_headRetire_reading hl),
    runAll_cons (exec_transactionEnd_reading hl.le kind), runAll]

theorem Queue.entries_setHeadRead (q : Queue) (r : ReadState) :
    q.setHeadRead r
      = { q with
          entries := (q.entries.take 1).map (fun e => { e with read := r }) ++ q.entries.tail } := by
  cases h : q.entries with
  | nil =>
    rw [Queue.setHeadRead_nil h]
    exact congrArg (fun l => { q with entries := l }) h
  | cons e rest => exact Queue.setHeadRead_cons h r

end

end Sys2Proof.Machine

namespace Sys2Proof

open Machine

/-- Settles O29: at the lines byte by byte, and by the commands event by event. -/
theorem wholeReadCarriesTheHeadOut : Obligations.WholeReadCarriesTheHeadOut := by
  refine ⟨?_, fun s e rest kind hr ht hq => ⟨?_, ?_⟩⟩
  · intro s bytes hr ht hp hc hs host heard
    refine ⟨?_, fun kind hn => ?_⟩
    · obtain ⟨bs, -, run⟩ := State.hears_read hr ht hp hc hs bytes []
      rw [List.append_nil, ← List.append_assoc] at run
      refine ⟨_, run, by rw [← hp]; rfl, ⟨s.sentAfter bytes, rfl⟩, ?_⟩
      show s.queueAfter bytes = _
      unfold State.queueAfter
      split
      · rfl
      · exact s.queue.entries_setHeadRead .sending
    · obtain ⟨bs, hb, run⟩ := State.hears_read hr ht hp hc hs bytes (endLines kind)
      rw [← List.append_assoc, ← List.append_assoc] at run
      exact run.trans (State.hears_end hr hp hn kind hb)
  · obtain ⟨frame, -⟩ := s.settled_keeps
    rw [State.readFrame_cons hq] at frame
    refine ⟨s.readingAfter 4, s.sentAfter 4, runAll_flags hr ht [], rfl, frame, ?_⟩
    exact (congrArg crc frame).trans (crc_sentFrame ..)
  · rw [runAll_flags hr ht, runAll_retire, hq]
    rfl

end Sys2Proof
end

section
/-! The events of a write (O24) and its end (O25): what the address and each byte do to the slot and the
record, in the order of R152 and R153, and how R154 judges the frame at a STOP or a repeated START. -/

namespace Sys2Proof.Machine

/-! ## The slots (R152) -/

section
variable {l : LinkPort}

/-- With neither slot EMPTY there is none to fill. -/
theorem LinkPort.emptySlot_none (h : l.slot0 ≠ .empty ∧ l.slot1 ≠ .empty) : l.emptySlot = none := by
  obtain ⟨first, second⟩ := h
  rw [LinkPort.emptySlot, if_neg first, if_neg second]

/-- With an EMPTY slot there is one to fill, which may be the other (notes/assumptions/8.md). -/
theorem LinkPort.emptySlot_some {i : SlotId} (h : l.slot i = .empty) :
    ∃ j, l.emptySlot = some j ∧ l.slot j = .empty := by
  unfold LinkPort.emptySlot
  by_cases h0 : l.slot0 = .empty
  · exact ⟨.first, if_pos h0, h0⟩
  · have h1 : l.slot1 = .empty := by
      cases i with
      | first => exact absurd h h0
      | second => exact h
    exact ⟨.second, by rw [if_neg h0, if_pos h1], h1⟩

end

section
variable {s : State} {w : WriteRecord} {b len : Byte} {kind : EndKind}

/-! ## The address of a write (R149, R152) -/

theorem exec_writeAddress_taken (hr : s.inReset = none) (ht : s.link.transaction = .none) {j : SlotId}
    (hj : s.link.emptySlot = some j) :
    exec (.writeAddress s.link.address) s
      = .next
        { s with
          link :=
            { s.link.setSlot j (.filling []) with
              transaction := .write { slot := j }, ack := true, busTimer := some 25 } } := by
  simp [exec, execWriteAddress, State.writeAddress, hr, ht, hj, State.withLink, LinkPort.edge,
    busTimeoutMs]

theorem exec_writeAddress_refused (hr : s.inReset = none) (ht : s.link.transaction = .none)
    {address : BitVec 7}
    (h : address ≠ s.link.address ∨ (s.link.slot0 ≠ .empty ∧ s.link.slot1 ≠ .empty)) :
    exec (.writeAddress address) s = .next { s with link := { s.link with ack := false } } := by
  by_cases ha : address = s.link.address
  · have hj := LinkPort.emptySlot_none (h.resolve_left fun hn => hn ha)
    simp [exec, execWriteAddress, State.writeAddress, hr, ht, ha, hj, State.withLink]
  · simp [exec, execWriteAddress, State.writeAddress, hr, ht, ha, State.withLink]

/-! ## The bytes of a write (R153) -/

theorem lenValid_iff : lenValid b = true ↔ 3 ≤ b.toNat ∧ b.toNat ≤ 63 := by
  rw [lenValid, Bool.and_eq_true, decide_eq_true_iff, decide_eq_true_iff]

theorem exec_writeByte_refused (ht : s.link.transaction = .write w) (hw : w.refused = true) :
    exec (.writeByte b) s
      = .next
        { s with
          link :=
            { s.link with
              transaction := .write { w with received := w.received + 1 }
              ack := false, busTimer := some 25 } } := by
  simp only [exec, execWriteByte, State.writeByte, ht, hw, if_true]
  rfl

/-- The first byte is LEN. -/
theorem exec_writeByte_first (ht : s.link.transaction = .write w) (hw : w.refused = false)
    (hl : w.len = none) : exec (.writeByte b) s = .next (s.writeLen w b) := by
  simp only [exec, execWriteByte, State.writeByte, ht, hw, hl, Bool.false_eq_true, if_false]

/-- The bytes after a valid LEN. -/
theorem exec_writeByte_next (ht : s.link.transaction = .write w) (hw : w.refused = false)
    (hl : w.len = some len) : exec (.writeByte b) s = .next (s.writeNext w len b) := by
  simp only [exec, execWriteByte, State.writeByte, ht, hw, hl, Bool.false_eq_true, if_false]

theorem State.writeLen_kept (h3 : 3 ≤ b.toNat) (h63 : b.toNat ≤ 63) :
    s.writeLen w b
      = { s with
          link :=
            { s.link with
              transaction := .write { w with received := w.received + 1, len := some b }
              ack := true, busTimer := some 25 } } := by
  rw [State.writeLen, if_pos (lenValid_iff.2 ⟨h3, h63⟩)]
  rfl

theorem State.writeLen_bad (h : b.toNat < 3 ∨ 63 < b.toNat) :
    s.writeLen w b
      = { s with
          link :=
            { s.link.setSlot w.slot .empty with
              transaction := .write { w with received := w.received + 1, refused := true }
              ack := false, busTimer := some 25 }
          queue := s.queue.offer s.table.length (.link .badLen none) } := by
  have bad : ¬ lenValid b = true := fun hv => by
    have := lenValid_iff.1 hv
    omega
  rw [State.writeLen, if_neg bad]
  rfl

theorem State.writeNext_stored {bs : List Byte} (hs : s.link.slot w.slot = .filling bs)
    (h : w.received ≤ len.toNat) :
    s.writeNext w len b
      = { s with
          link :=
            { s.link.setSlot w.slot (.filling (bs ++ [b])) with
              transaction := .write
                { w with
                  received := w.received + 1
                  tag := if w.received = 1 then some b else w.tag }
              ack := true, busTimer := some 25 } } := by
  rw [State.writeNext, if_pos (Nat.lt_succ_of_le h), hs]
  rfl

theorem State.writeNext_overlong (h : len.toNat < w.received) :
    s.writeNext w len b
      = { s with
          link :=
            { s.link with
              transaction := .write { w with received := w.received + 1, overlong := true }
              ack := false, busTimer := some 25 } } := by
  rw [State.writeNext, if_neg (by omega)]
  rfl

/-! ## The end of a write (R154, R157) -/

theorem exec_transactionEnd_refused (ht : s.link.transaction = .write w) (hw : w.refused = true) :
    exec (.transactionEnd kind) s
      = .next { s with link := { s.link with transaction := .none, busTimer := none } } := by
  simp only [exec, execTransactionEnd, State.transactionEnd, ht, hw, if_true]
  rfl

theorem exec_transactionEnd_judged (ht : s.link.transaction = .write w) (hw : w.refused = false) :
    exec (.transactionEnd kind) s = .next (s.judgeWrite w) := by
  simp only [exec, execTransactionEnd, State.transactionEnd, ht, hw, Bool.false_eq_true, if_false]

theorem State.judgeWrite_short (h : ∀ len ∈ w.len, w.received ≤ len.toNat) :
    s.judgeWrite w = s.discardFrame w .short w.tag := by
  unfold State.judgeWrite
  cases hl : w.len with
  | none => rfl
  | some len => exact if_pos (Nat.lt_succ_of_le (h len hl))

theorem State.judgeWrite_long (hl : w.len = some len) (h : len.toNat < w.received)
    (ho : w.overlong = true) : s.judgeWrite w = s.discardFrame w .long w.tag := by
  simp only [State.judgeWrite, hl]
  rw [if_neg (by omega), if_pos ho]

section
variable {tag code received : Byte} {payload : List Byte} (hn : len.toNat = payload.length + 3)
include hn

/-- The stored bytes up to the CRC byte: TAG, CODE and payload. -/
theorem take_stored :
    (tag :: code :: payload ++ [received]).take (len.toNat - 1) = tag :: code :: payload := by
  rw [hn]
  exact List.take_left' rfl

theorem frameOf_stored :
    frameOf len (tag :: code :: payload ++ [received]) = ⟨tag, code, payload⟩ := by
  rw [frameOf, take_stored hn]
  rfl

theorem crcMatches_stored :
    crcMatches len (tag :: code :: payload ++ [received]) = true
      ↔ crc (len :: tag :: code :: payload) = received := by
  have last : (tag :: code :: payload ++ [received]).getD (len.toNat - 1) 0 = received := by
    rw [hn, List.getD_append_right _ _ _ _ (by simp)]
    simp
  rw [crcMatches, take_stored hn, last, beq_iff_eq]

/-- A frame that is neither short nor overlong stands or falls with its CRC. -/
theorem State.judgeWrite_whole (hl : w.len = some len) (h : len.toNat < w.received)
    (ho : w.overlong = false)
    (hs : s.link.slot w.slot = .filling (tag :: code :: payload ++ [received])) :
    s.judgeWrite w
      = if crc (len :: tag :: code :: payload) = received then
          { s with
            link :=
              { s.link.setSlot w.slot (.full ⟨tag, code, payload⟩) with
                transaction := .none, busTimer := none
                fullOrder := s.link.fullOrder ++ [w.slot] } }
        else s.discardFrame w .crc w.tag := by
  simp only [State.judgeWrite, hl, ho, hs, RequestSlot.bytes, frameOf_stored hn,
    crcMatches_stored hn, Bool.false_eq_true, if_false]
  exact if_neg (by omega)

end

end

end Sys2Proof.Machine

namespace Sys2Proof

open Machine

/-- Settles O24, the address first, then a byte by the record it arrives in. -/
theorem writeBytesAreJudgedAsTheyArrive : Obligations.WriteBytesAreJudgedAsTheyArrive := by
  refine fun s => ⟨fun address hr ht => ⟨?_, exec_writeAddress_refused hr ht⟩, fun w b ht =>
    ⟨exec_writeByte_refused ht, fun hw hl h3 h63 => ?_, fun hw hl h => ?_, fun len bs hw hl hs h => ?_,
      fun len hw hl h => ?_⟩⟩
  · rintro rfl i hi
    obtain ⟨j, hj, empty⟩ := LinkPort.emptySlot_some hi
    exact ⟨j, empty, exec_writeAddress_taken hr ht hj⟩
  · rw [exec_writeByte_first ht hw hl, State.writeLen_kept h3 h63]
  · rw [exec_writeByte_first ht hw hl, State.writeLen_bad h]
  · rw [exec_writeByte_next ht hw hl, State.writeNext_stored hs h]
  · rw [exec_writeByte_next ht hw hl, State.writeNext_overlong h]

/-- Settles O25, in the order of the table of R154. -/
theorem endOfWriteIsJudged : Obligations.EndOfWriteIsJudged := by
  refine fun s kind w bs ht => ⟨exec_transactionEnd_refused ht, fun hw h => ?_, fun len hw hl h hs =>
    ⟨fun ho => ?_, fun tag code payload received ho hb hn => ?_⟩⟩
  · rw [exec_transactionEnd_judged ht hw, State.judgeWrite_short h]
    rfl
  · rw [exec_transactionEnd_judged ht hw, State.judgeWrite_long hl h ho]
    rfl
  · rw [exec_transactionEnd_judged ht hw, State.judgeWrite_whole hn hl h ho (hb ▸ hs)]
    rfl

end Sys2Proof
end

section
/-! The CRC (O30): its shifts as the polynomial gives them, over the lemma that a list followed by its own
CRC gives 0. -/

namespace Sys2Proof.Machine

theorem crcShift_eq (r : Byte) :
    crcShift r = if r.getLsbD 7 then (r <<< 1) ^^^ 0x2F else r <<< 1 := by
  rw [crcShift, BitVec.msb_eq_getLsbD_last]

/-- A byte is shifted out in eight shifts. -/
theorem crcByte_eq_foldl (r b : Byte) :
    crcByte r b = (List.range 8).foldl (fun x _ => crcShift x) (r ^^^ b) := rfl

theorem crc_append_singleton (bytes : List Byte) (b : Byte) :
    crc (bytes ++ [b]) = crcByte (crc bytes) b := by
  rw [crc, List.foldl_append]
  rfl

end Sys2Proof.Machine

namespace Sys2Proof

open Machine

/-- Settles O30: one byte by its eight shifts, and a whole frame by its last byte. -/
theorem crcFollowsItsPolynomial : Obligations.CrcFollowsItsPolynomial := by
  refine ⟨rfl, fun bytes b => ?_, crc_append_self, fun f => crc_append_self _, crc_sentFrame⟩
  simp only [crc_append_singleton, crcByte_eq_foldl, crcShift_eq]

end Sys2Proof
end

section
/-! A whole write (O26). `s.writingAfter j bs` is the state of a write that began in `s` into slot `j` and has
brought the bytes `bs`; one byte leads to the next such state, at the lines as by the commands, and the end
of the transaction judges the frame. A refused address leaves the port no part on the bus. -/

namespace Sys2Proof.Machine

/-! ## The bytes of a frame as they arrive (R153, R161) -/

/-- The bytes received so far can be a frame's: a valid LEN, and no more than LEN bytes behind it. -/
def FrameBegins : List Byte → Prop
  | [] => True
  | len :: stored => 3 ≤ len.toNat ∧ len.toNat ≤ 63 ∧ stored.length ≤ len.toNat

theorem FrameBegins.of_append {bs cs : List Byte} (h : FrameBegins (bs ++ cs)) : FrameBegins bs := by
  cases bs with
  | nil => trivial
  | cons len stored =>
    obtain ⟨low, high, fits⟩ := h
    rw [List.append_eq, List.length_append] at fits
    exact ⟨low, high, by omega⟩

section
variable {f : Frame} (hf : f.payload.length ≤ 60)
include hf

theorem Frame.len_toNat : f.len.toNat = f.payload.length + 3 := by
  rw [Frame.len, byteOf, BitVec.toNat_ofNat]
  exact Nat.mod_eq_of_lt (by omega)

theorem Frame.begins_bytes : FrameBegins f.bytes := by
  have len := f.len_toNat hf
  refine ⟨by omega, by omega, ?_⟩
  simp [len]

end

/-! ## The states of a write -/

/-- The record of a write into slot `j` that has brought the bytes `bs` (R151). -/
def recordAfter (j : SlotId) : List Byte → WriteRecord
  | [] => { slot := j }
  | len :: stored =>
    { slot := j, received := stored.length + 1, len := some len, tag := stored.head? }

section
variable {s : State} {j : SlotId} {bs : List Byte} {b : Byte}

/-- The link port of a write into slot `j` that has brought the bytes `bs`; LEN is not stored. -/
def State.linkWriting (s : State) (j : SlotId) (bs : List Byte) : LinkPort :=
  { s.link.setSlot j (.filling bs.tail) with
    transaction := .write (recordAfter j bs), ack := true, busTimer := some 25 }

/-- The state of a write that began in `s` into slot `j` and has brought the bytes `bs`. -/
def State.writingAfter (s : State) (j : SlotId) (bs : List Byte) : State :=
  { s with link := s.linkWriting j bs }

theorem State.slot_linkWriting (s : State) (j : SlotId) (bs : List Byte) :
    (s.linkWriting j bs).slot j = .filling bs.tail := by
  cases j <;> rfl

theorem State.linkWriting_clocked (s : State) (j : SlotId) (bs : List Byte) :
    (s.linkWriting j bs).clocked = s.linkWriting j bs := by
  simp [LinkPort.clocked, LinkPort.edge, State.linkWriting, busTimeoutMs]

/-- The record after one more byte behind LEN: the first of them is the TAG. -/
theorem recordAfter_append (j : SlotId) (len : Byte) (stored : List Byte) (b : Byte) :
    recordAfter j (len :: stored ++ [b])
      = { recordAfter j (len :: stored) with
          received := (recordAfter j (len :: stored)).received + 1
          tag :=
            if (recordAfter j (len :: stored)).received = 1 then some b
            else (recordAfter j (len :: stored)).tag } := by
  cases stored <;> simp [recordAfter]

/-- The address of a write begins it, with no byte yet (R152). -/
theorem exec_writeAddress_begins (hr : s.inReset = none) (ht : s.link.transaction = .none)
    (hj : s.link.emptySlot = some j) :
    exec (.writeAddress s.link.address) s = .next (s.writingAfter j []) :=
  exec_writeAddress_taken hr ht hj

/-- A byte that still belongs to a frame is taken. -/
theorem exec_writeByte_writing (h : FrameBegins (bs ++ [b])) :
    exec (.writeByte b) (s.writingAfter j bs) = .next (s.writingAfter j (bs ++ [b])) := by
  cases bs with
  | nil =>
    obtain ⟨low, high, -⟩ := h
    rw [exec_writeByte_first (w := recordAfter j []) rfl rfl rfl, State.writeLen_kept low high]
    rfl
  | cons len stored =>
    obtain ⟨-, -, fits⟩ := h
    rw [List.append_eq, List.length_append] at fits
    rw [exec_writeByte_next (w := recordAfter j (len :: stored)) rfl rfl rfl,
      State.writeNext_stored (s.slot_linkWriting j (len :: stored)) fits, ← recordAfter_append]
    cases j <;> rfl

/-- The state in which the frame stands whole in slot `j`, behind the FULL slots before it (R154). -/
def State.frameStands (s : State) (j : SlotId) (f : Frame) : State :=
  { s with
    link :=
      { s.link.setSlot j (.full f) with
        fullOrder := s.link.fullOrder ++ [j], busTimer := none, ack := true } }

/-- The end of a whole frame. -/
theorem exec_transactionEnd_writing {f : Frame} (hf : f.payload.length ≤ 60)
    (ht : s.link.transaction = .none) (kind : EndKind) :
    exec (.transactionEnd kind) (s.writingAfter j f.bytes) = .next (s.frameStands j f) := by
  have len := f.len_toNat hf
  have whole : f.len.toNat < (recordAfter j f.bytes).received := by
    rw [len]
    simp [recordAfter, Frame.bytes]
  have idle :
      s.frameStands j f
        = { s with
            link :=
              { s.link.setSlot j (.full f) with
                fullOrder := s.link.fullOrder ++ [j], transaction := .none
                busTimer := none, ack := true } } := by
    rw [State.frameStands, ← ht]
    cases j <;> rfl
  rw [exec_transactionEnd_judged (w := recordAfter j f.bytes) rfl rfl,
    State.judgeWrite_whole len rfl whole rfl (s.slot_linkWriting j f.bytes), idle]
  refine congrArg Host.Outcome.next ((if_pos rfl).trans ?_)
  cases j <;> rfl

/-! ## The write by commands -/

/-- Bytes that still belong to a frame, one after the other. -/
theorem runAll_writing (cs : List Byte) (after : List Instr) (bs : List Byte)
    (h : FrameBegins (bs ++ cs)) :
    runAll (cs.map Instr.writeByte ++ after) (s.writingAfter j bs)
      = runAll after (s.writingAfter j (bs ++ cs)) := by
  induction cs generalizing bs with
  | nil => rw [List.append_nil, List.map_nil, List.nil_append]
  | cons b cs ih =>
    rw [List.append_cons] at h ⊢
    rw [List.map_cons, List.cons_append, runAll_cons (exec_writeByte_writing h.of_append), ih _ h]

/-! ## The write at the lines -/

theorem State.busRole_writing (b : Bus) (xs : List LineChange) (cs : List Instr)
    (role : b.role = .receiving) :
    ((s.writingAfter j bs).onLines (s.linkWriting j bs) b xs cs).busRole = .receiving := by
  simp [State.busRole, State.onLines, State.linkWriting, role]

/-- The port receives the byte behind the address, and behind each byte. -/
theorem State.nextRole_writing {r : BusRole} (hr : r = .address ∨ r = .receiving) (b : Bus)
    (xs : List LineChange) (cs : List Instr) (role : b.role = r) :
    ((s.writingAfter j bs).onLines (s.linkWriting j bs) b xs cs).nextRole = .receiving := by
  rcases hr with rfl | rfl <;>
    simp [State.nextRole, State.busRole, State.onLines, State.linkWriting, role]

/-- The port leaves SDA to the host in the first bits of a byte that it receives. -/
theorem State.drivesSda_writing (b : Bus) (xs : List LineChange) (cs : List Instr)
    (role : b.role = .receiving) (first : b.bits.length < 2) :
    ((s.writingAfter j bs).onLines (s.linkWriting j bs) b xs cs).drivesSda = false := by
  have data : b.inAck = false := by
    unfold Bus.inAck
    split <;> exact decide_eq_false (by omega)
  simp [State.drivesSda, State.busRole, State.onLines, State.linkWriting, role, data]

/-- The bytes that are left of a frame: the host hears its own bits, and the acknowledge of each byte. -/
theorem State.hears_written (hr : s.inReset = none) (rest : List LineChange) (cs bs : List Byte)
    (h : FrameBegins (bs ++ cs)) {r : BusRole} (role : r = .address ∨ r = .receiving)
    {st : Bool} {bits : List Bool} (hb : bits.length = 9) {u : State} {heard : List Bool}
    (hu : ∀ r' bits', r' = .address ∨ r' = .receiving → bits'.length = 9 →
      ((s.writingAfter j (bs ++ cs)).onLines (s.linkWriting j (bs ++ cs)) ⟨true, true, st, r', bits'⟩
        rest []).Hears heard u) :
    ((s.writingAfter j bs).onLines (s.linkWriting j bs) ⟨true, true, st, r, bits⟩
        (cs.flatMap clockByte ++ rest) []).Hears
      ((cs.flatMap fun b => bitsOfByte b ++ [false]) ++ heard) u := by
  induction cs generalizing bs r bits with
  | nil =>
    rw [List.append_nil] at hu
    exact hu r bits role hb
  | cons b cs ih =>
    rw [List.append_cons] at h hu
    simp only [List.flatMap_cons, List.append_assoc]
    exact recv_byte hr (s.linkWriting_clocked j bs) rfl rfl (s.linkWriting_clocked j (bs ++ [b])) role
      (fun B X => exec_writeByte_writing (s := s.onLines s.link B X []) h.of_append) hb _
      fun bits' hb' => ih (bs ++ [b]) h (.inr rfl) hb' hu

/-- A START, the address with the direction bit 0, the frame, and the end of the transaction. -/
theorem State.hears_write {f : Frame} (hr : s.inReset = none) (ht : s.link.transaction = .none)
    (hp : s.pending = []) (hc : s.bus.scl = true) (hs : s.bus.sda = true)
    (hj : s.link.emptySlot = some j) (hf : f.payload.length ≤ 60) (kind : EndKind) :
    State.Hears
      { s with
        lines :=
          startLines ++ (addressByte s.link.address false :: f.bytes).flatMap clockByte
            ++ endLines kind }
      ((addressByte s.link.address false :: f.bytes).flatMap (fun b => bitsOfByte b ++ [false])
        ++ [kind == .repeatedStart])
      { s.frameStands j f with bus := busAfter kind, lines := [] } := by
  have ended : ∀ r bits, r = .address ∨ r = .receiving → bits.length = 9 →
      ((s.writingAfter j f.bytes).onLines (s.linkWriting j f.bytes) ⟨true, true, true, r, bits⟩
        (endLines kind) []).Hears [kind == .repeatedStart]
        { s.frameStands j f with bus := busAfter kind, lines := [] } := by
    intro r bits role hb
    have run := end_lines (s := s.writingAfter j f.bytes) (s' := s.frameStands j f) (kind := kind)
      (h := true) (r := r) (r' := .receiving) hr (s.linkWriting_clocked j f.bytes)
      (State.nextRole_writing role) (by decide) State.drivesSda_writing State.busRole_writing
      (by decide)
      (fun B X => exec_transactionEnd_writing (s := s.onLines s.link B X []) hf ht kind) rfl hb
    cases s
    cases hp
    exact run
  simp only [List.flatMap_cons, List.append_assoc]
  refine start_lines hp hr ht hc hs _ ?_
  refine address_byte (a := s.link.address) (read := false) (s' := s.writingAfter j [])
    (l' := s.linkWriting j []) (d := true) hr hr ht (s.linkWriting_clocked j []) rfl
    (fun B X => exec_writeAddress_begins (s := s.onLines s.link B X []) hr ht hj) rfl _ ?_
  exact State.hears_written hr _ f.bytes [] (f.begins_bytes hf) (.inl rfl) (by simp [bitsOfByte]) ended

/-! ## A refused address (R149, R150, R152) -/

/-- An address that is not acknowledged, in either direction. -/
theorem exec_address_refused (hr : s.inReset = none) (ht : s.link.transaction = .none)
    {address : BitVec 7} {read : Bool}
    (h : address ≠ s.link.address ∨ (read = false ∧ ∀ i, s.link.slot i ≠ .empty)) :
    exec (if read then .readAddress address else .writeAddress address) s
      = .next { s with link := { s.link with ack := false } } := by
  cases read with
  | true => exact exec_readAddress_other hr ht (h.resolve_right fun ⟨write, _⟩ => absurd write (by decide))
  | false =>
    exact exec_writeAddress_refused hr ht (h.imp_right fun ⟨_, full⟩ => ⟨full .first, full .second⟩)

/-- The bits of the bytes that the host clocks, with SDA released in each acknowledge bit. -/
theorem flatMap_clockByte (bytes : List Byte) :
    bytes.flatMap clockByte = (bytes.flatMap fun b => bitsOfByte b ++ [true]).flatMap clockBit := by
  simp only [List.flatMap_assoc, List.flatMap_append, List.flatMap_singleton]
  rfl

/-- After a refused address the port leaves every bit to the host. -/
theorem State.hears_unaddressed (hr : s.inReset = none) (ht : s.link.transaction = .none) {st : Bool}
    {bits : List Bool} (hb : bits.length = 9) (bytes : List Byte) :
    ∃ B,
      (s.onLines s.link ⟨true, true, st, .address, bits⟩ (bytes.flatMap clockByte) []).Hears
        (bytes.flatMap fun b => bitsOfByte b ++ [true]) (s.onLines s.link B [] []) := by
  have clocked : s.link.clocked = s.link := if_pos ht
  rw [flatMap_clockByte]
  cases hx : bytes.flatMap fun b => bitsOfByte b ++ [true] with
  | nil => exact ⟨_, .done _⟩
  | cons x xs =>
    obtain ⟨B, run⟩ := off_low s hr clocked st xs x true
    refine ⟨B, Hears_next hr clocked hb (r' := .off) ?_ _ run⟩
    rintro b ys cs role
    simp [State.nextRole, State.busRole, State.onLines, role, ht]

/-- A START, a refused address, and any bytes after it. -/
theorem State.hears_refused (hr : s.inReset = none) (ht : s.link.transaction = .none)
    (hp : s.pending = []) (hc : s.bus.scl = true) (hs : s.bus.sda = true) {address : BitVec 7}
    {read : Bool} (h : address ≠ s.link.address ∨ (read = false ∧ ∀ i, s.link.slot i ≠ .empty))
    (bytes : List Byte) :
    ∃ B,
      State.Hears
        { s with lines := startLines ++ (addressByte address read :: bytes).flatMap clockByte }
        ((addressByte address read :: bytes).flatMap fun b => bitsOfByte b ++ [true])
        (s.onLines { s.link with ack := false } B [] []) := by
  obtain ⟨B, run⟩ := State.hears_unaddressed (s := { s with link := { s.link with ack := false } })
    (st := true) (bits := bitsOfByte (addressByte address read) ++ [true]) hr ht (by simp [bitsOfByte])
    bytes
  simp only [List.flatMap_cons, List.append_assoc]
  refine ⟨B, start_lines hp hr ht hc hs _ ?_⟩
  exact address_byte (s' := { s with link := { s.link with ack := false } })
    (l' := { s.link with ack := false }) (d := false) hr hr ht (if_pos ht) (by simp [ht])
    (fun B X => exec_address_refused (s := s.onLines s.link B X []) hr ht h) rfl _ run

end

end Sys2Proof.Machine

namespace Sys2Proof

open Machine

/-- Settles O26: by the commands and at the lines, and for a refused address at the lines. -/
theorem writtenFrameReachesItsSlot : Obligations.WrittenFrameReachesItsSlot := by
  refine ⟨fun s f kind i hr ht hi hf => ?_, fun s address read bytes hr ht h hp hc hs => ?_⟩
  · obtain ⟨j, hj, empty⟩ := LinkPort.emptySlot_some hi
    refine ⟨j, empty, ?_, fun hp hc hs => State.hears_write hr ht hp hc hs hj hf kind⟩
    rw [List.cons_append, runAll_cons (exec_writeAddress_begins hr ht hj),
      runAll_writing f.bytes _ [] (f.begins_bytes hf), List.nil_append,
      runAll_cons (exec_transactionEnd_writing hf ht kind)]
    rfl
  · obtain ⟨B, run⟩ := State.hears_refused hr ht hp hc hs h bytes
    exact ⟨_, run, by rw [← hp]; rfl⟩

end Sys2Proof
end

section
/-! What a request command does with the frame it takes: it is answered by one REPLY, behind all else that it
posts, and a refusal does nothing more (O5, O6); the first checks in their order (O7); and the commands that
the state cannot raise (O4). -/

-- One proof at a time: each proof elaborated beside another takes a thread, whose stack counts as data.
set_option Elab.async false

namespace Sys2Proof.Machine

/-! ## The request that a command stands for -/

/-- What the command processor does with a frame that it has taken, by the command that took it. -/
def requestHandler : Instr → State → Frame → State
  | .identify => State.doIdentify
  | .status => State.doStatus
  | .setChannel => State.doSetChannel
  | .getChannel => State.doGetChannel
  | .setKey => State.doSetKey
  | .clearKey => State.doClearKey
  | .getKey => State.doGetKey
  | .setScan => State.doSetScan
  | .getScan => State.doGetScan
  | .setTiming => State.doSetTiming
  | .setEvents => State.doSetEvents
  | .setMode => State.doSetMode
  | .calibrate => State.doCalibrate
  | .measure => State.doMeasure
  | .cancel => State.doCancel
  | .restart => State.doRestart
  | .unknownRequest => State.doUnknownRequest
  | _ => fun s _ => s

section
variable {c : Instr} {code : Byte} {s t : State} {i : SlotId} {f : Frame}

theorem exec_request (hc : requestCode c = some code) (s : State) :
    exec c s = .next (s.takeRequest (fun x => x == code) (requestHandler c)) := by
  cases c <;> cases hc <;> rfl

/-- A request command takes the earliest FULL slot where that holds its CODE (R164, R165). -/
theorem exec_request_taken (hc : requestCode c = some code) (ht : s.Takes code i f) :
    exec c s = .next (requestHandler c (s.afterTake i) f) := by
  exact (exec_request hc s).trans (congrArg _ (State.takeRequest_of_takes ht (beq_self_eq_true code)))

theorem exec_request_untaken (hc : requestCode c = some code) (h : ∀ i f, ¬ s.Takes code i f) :
    exec c s = .next s := by
  rw [exec_request hc, State.takeRequest_of_not_takes]
  intro i f ht
  refine beq_eq_false_iff_ne.2 fun he => h i f ?_
  rwa [he] at ht

/-- UNKNOWN_REQUEST takes a frame whose CODE is none of the sixteen (R166). -/
theorem exec_unknownRequest_taken (ht : s.Takes code i f) (hn : requestCodes.contains code = false) :
    exec .unknownRequest s = .next (requestHandler .unknownRequest (s.afterTake i) f) :=
  congrArg _ (State.takeRequest_of_takes ht (by rw [hn]; rfl))

end

/-! ## The REPLY entries of the queue -/

/-- The body is a REPLY (R132). -/
def Body.isReply : Body → Bool
  | .reply _ _ _ => true
  | _ => false

/-- The number of REPLY entries in the queue. -/
def Queue.replies (q : Queue) : Nat := q.entries.countP fun e => e.body.isReply

section
variable {s t u : State} {q : Queue} {b : Body}

/-- What a producer offers is no REPLY. -/
theorem Body.isReply_of_isRaised (h : b.isRaised = true) : b.isReply = false := by
  cases b with
  | reply => cases h
  | _ => rfl

theorem Queue.replies_join (q : Queue) (h : b.isReply = false) : (q.join b).replies = q.replies := by
  simp [Queue.replies, Queue.join, h]

theorem Entry.isReply_coalesce (k : KeyNo) (position : Nat) (e : Entry) :
    (e.coalesce k position).body.isReply = e.body.isReply := by
  rcases e.coalesce_cases k position with h | ⟨p, hb, h⟩ <;> rw [h]
  rw [hb]
  rfl

theorem Queue.replies_coalesce (q : Queue) (k : KeyNo) (position : Nat) :
    ({ q with entries := q.entries.map (Entry.coalesce k position) } : Queue).replies = q.replies := by
  simp only [Queue.replies, List.countP_map, Function.comp_def, Entry.isReply_coalesce]

theorem Queue.replies_admitEvent (q : Queue) (n : Nat) (h : b.isReply = false) :
    (q.admitEvent n b).replies = q.replies := by
  have overrun : ∀ lost, (q.join (.overrun lost)).replies = q.replies := fun _ => q.replies_join rfl
  unfold Queue.admitEvent
  dsimp only
  split
  · split
    · split
      · exact (Queue.replies_join _ h).trans (overrun q.lost)
      · exact overrun q.lost
    · exact q.replies_join h
  · rfl

/-- The offer of an event adds no REPLY, whatever becomes of it (R134 to R139). -/
theorem Queue.replies_offer (q : Queue) (n : Nat) (h : b.isReply = false) :
    (q.offer n b).replies = q.replies := by
  unfold Queue.offer
  split
  · rfl
  · split
    · split
      · exact q.replies_coalesce _ _
      · exact q.replies_admitEvent n rfl
    · exact q.replies_admitEvent n h

theorem State.replies_post (s : State) (h : b.isReply = false) :
    (s.post b).queue.replies = s.queue.replies :=
  s.queue.replies_offer _ h

theorem State.replies_postAll (s : State) {bs : List Body} (h : ∀ b ∈ bs, b.isRaised = true) :
    (s.postAll bs).queue.replies = s.queue.replies := by
  induction bs generalizing s with
  | nil => rfl
  | cons b rest ih =>
    obtain ⟨first, later⟩ := List.forall_mem_cons.1 h
    exact (ih (s.post b) later).trans (s.replies_post (Body.isReply_of_isRaised first))

theorem State.replies_completeEntry (s : State) (e : PendingEntry) (status : Status) :
    (s.completeEntry e status).queue.replies = s.queue.replies :=
  s.queue.replies_join rfl

theorem State.replies_closeEntryOf (s : State) (origin : JobOrigin) (status : Option Status) :
    (s.closeEntryOf origin status).queue.replies = s.queue.replies := by
  unfold State.closeEntryOf
  split
  · rfl
  · split
    · split
      · exact s.replies_completeEntry _ _
      · rfl
    · rfl

theorem State.appendResult_queue (s : State) (tag : Byte) (r : CalResult) :
    (s.appendResult tag r).queue = s.queue :=
  congrArg Prod.fst (s.appendResult_posting tag r)

theorem State.replies_endJob (s : State) (c : ChannelNo) (j : Job) (o : CalOutcome) (ch : Channel)
    {events : List Body} (h : ∀ b ∈ events, b.isRaised = true) :
    (s.endJob c j o ch events).queue.replies = s.queue.replies := by
  refine Eq.trans ?_ (State.replies_postAll ((s.setChan c ch).setJob c none) h)
  unfold State.endJob State.handResult
  split
  · rfl
  · split
    · rw [State.appendResult_queue]
    · exact State.replies_post _ rfl

theorem State.replies_abortJobs (s : State) (cs : List ChannelNo) :
    (cs.foldl State.abortJob s).queue.replies = s.queue.replies := by
  induction cs generalizing s with
  | nil => rfl
  | cons c rest ih =>
    refine (ih (s.abortJob c)).trans ?_
    unfold State.abortJob
    split
    · exact s.replies_endJob c _ _ _ (List.forall_mem_nil _)
    · rfl

theorem State.replies_cancelCalibrate (s : State) (tag : Byte) :
    (s.cancelCalibrate tag).queue.replies = s.queue.replies := by
  have aborted : (s.abortJobsOfTag tag).queue.replies = s.queue.replies := s.replies_abortJobs _
  unfold State.cancelCalibrate
  dsimp only
  split
  · exact (State.replies_completeEntry _ _ _).trans aborted
  · exact aborted

/-- A move of a block posts no REPLY. -/
theorem Move.replies (h : Move s t) : t.queue.replies = s.queue.replies := by
  cases h with
  | post b raised => exact s.replies_post (Body.isReply_of_isRaised raised)
  | ended c j o ch events status _ _ raised =>
    exact (State.replies_closeEntryOf _ _ _).trans (s.replies_endJob c j o ch raised)
  | completed e status => exact s.replies_completeEntry e status
  | cancelled e => exact s.replies_cancelCalibrate e.tag
  | channels f => rw [State.mapChannels_queue]
  | keys f => rw [State.mapKeys_queue]
  | sched | freed | taken | abandon | drawn | channel | create | advance | measured => rfl

theorem Moves.replies (h : Moves s t) : t.queue.replies = s.queue.replies :=
  h.keeps (p := fun u => u.queue.replies = s.queue.replies) (fun _ _ hm hu => hm.replies.trans hu) rfl

end

/-! ## The answer to a request -/

/-- `t` is the answer to a request with a tag that `s` has taken: one REPLY behind all else that the request
posts, and with a status other than OK and ACCEPTED nothing else (R165). -/
def State.AnsweredBy (s t : State) (tag : Byte) : Prop :=
  ∃ v status data, t = v.afterReply tag status data ∧ v.queue.replies = s.queue.replies
    ∧ (status ≠ .ok → status ≠ .accepted → v = s ∧ data = .nothing)

section
variable {s t u v : State} {tag : Byte} {status : Status} {f : Frame} {c : Instr} {code : Byte}

theorem State.AnsweredBy.refused (s : State) (tag : Byte) (status : Status) :
    s.AnsweredBy (s.afterReply tag status) tag :=
  ⟨s, status, .nothing, rfl, rfl, fun _ _ => ⟨rfl, rfl⟩⟩

theorem State.AnsweredBy.ok (data : ReplyData) (h : v.queue.replies = s.queue.replies) :
    s.AnsweredBy (v.reply tag .ok data) tag :=
  ⟨v, .ok, data, rfl, h, fun hs => absurd rfl hs⟩

theorem State.AnsweredBy.accepted (h : v.queue.replies = s.queue.replies) :
    s.AnsweredBy (v.reply tag .accepted) tag :=
  ⟨v, .accepted, .nothing, rfl, h, fun _ hs => absurd rfl hs⟩

/-- A request is refused by a check, or makes its effect, and is answered either way. -/
theorem State.AnsweredBy.perform {α : Type} {operands : Except Status α}
    {checks : α → List (Bool × Status)} {effect : α → State}
    (h : ∀ x, s.AnsweredBy (effect x) tag) :
    s.AnsweredBy (s.perform tag operands checks effect) tag := by
  rcases s.perform_cases tag operands checks effect with ⟨status, he, -⟩ | ⟨x, -, -, he⟩ <;> rw [he]
  · exact .refused s tag status
  · exact h x

theorem State.doCalibrate_answered (s : State) (f : Frame) : s.AnsweredBy (s.doCalibrate f) f.tag :=
  .perform fun cs => by
    refine .accepted ((Moves.workTaken _).replies.trans ?_)
    exact congrArg (fun x : Queue × Nat => x.1.replies)
      (State.createJobs_posting (s.openEntry f.tag (.calibrate (s.namedChannels cs) [])) f.tag _)

theorem State.doCancel_answered (s : State) (f : Frame) : s.AnsweredBy (s.doCancel f) f.tag :=
  .perform fun tag => by
    split
    · rename_i e he
      obtain ⟨-, ht⟩ := State.mem_of_entryOfTag he
      exact .ok _ (Moves.cancelEntry s e (ht ▸ he)).replies
    · exact .refused s f.tag .notFound

/-- Every request but RESTART is answered (R165). -/
theorem requestHandler_answered (hc : requestCode c = some code ∨ c = .unknownRequest)
    (hr : c ≠ .restart) (s : State) (f : Frame) : s.AnsweredBy (requestHandler c s f) f.tag := by
  cases c with
  | identify | status | getChannel | setKey | clearKey | getKey | setScan | getScan | setTiming | setEvents =>
    unfold requestHandler
    refine .perform fun _ => .ok _ ?_
    rfl
  | setChannel =>
    refine .perform fun x => .ok _ ?_
    exact (Moves.autoJobIfScanned (s.setChan x.1 ((s.chan x.1).configure x.2)) x.1).replies
  | setMode => exact .perform fun m => .ok _ (Moves.setMode s m).replies
  | calibrate => exact s.doCalibrate_answered f
  | measure => exact .perform fun _ => .accepted (Moves.workTaken _).replies
  | cancel => exact s.doCancel_answered f
  | restart => exact absurd rfl hr
  | unknownRequest => exact .refused s f.tag .badCode
  | _ => exact hc.elim nofun nofun

/-- A RESTART is refused, or leaves READY alone in the queue (R184). -/
theorem State.doRestart_cases (s : State) (f : Frame) :
    s.AnsweredBy (s.doRestart f) f.tag ∨ s.doRestart f = s.restarted f.tag := by
  unfold State.doRestart
  rcases s.perform_cases f.tag (parseEmpty f.payload) (fun _ => []) fun _ => s.restarted f.tag with
    ⟨status, he, -⟩ | ⟨x, -, -, he⟩
  · rw [he]
    exact .inl (.refused s f.tag status)
  · exact .inr he

end

/-! ## The length check (R167) -/

/-- A count byte within a payload, read as the length checks read it. -/
theorem exists_mem_getElem?_iff {p : List Byte} {i : Nat} (hi : i < p.length) (P : Nat → Prop) :
    (∃ n ∈ p[i]?, P n.toNat) ↔ P (byteAt p i) := by
  simp [byteAt, List.getD_eq_getElem?_getD, List.getElem?_eq_getElem hi]

theorem setKeyLengthOk_iff (p : List Byte) : setKeyLengthOk p = true ↔ acceptsLength .setKey p := by
  refine ⟨fun h => ?_, setKeyLengthOk_of_accepts⟩
  simp only [setKeyLengthOk, inRange, Bool.and_eq_true, decide_eq_true_eq] at h
  obtain ⟨⟨least, most⟩, counted⟩ := h
  exact ⟨least, most, (exists_mem_getElem?_iff (by omega) (p.length = 5 + ·)).2 counted⟩

theorem setScanLengthOk_iff (p : List Byte) :
    setScanLengthOk p = true ↔ acceptsLength .setScan p := by
  simp only [setScanLengthOk, inRange, Bool.and_eq_true, decide_eq_true_eq, and_assoc]
  refine and_congr_right fun least => and_congr_right fun _ => ?_
  exact (exists_mem_getElem?_iff (by omega) (p.length = 1 + 2 * ·)).symm

theorem calibrateLengthOk_iff (p : List Byte) :
    calibrateLengthOk p = true ↔ acceptsLength .calibrate p := by
  simp only [calibrateLengthOk, inRange, Bool.and_eq_true, decide_eq_true_eq, and_assoc]
  refine and_congr_right fun least => and_congr_right fun _ => ?_
  exact (exists_mem_getElem?_iff (by omega) (p.length = 1 + ·)).symm

/-- A payload of a length that its CODE does not accept is BADLEN (R166, R167). -/
theorem requestHandler_badLen {c : Instr} {f : Frame} (h : ¬ acceptsLength c f.payload) (s : State) :
    requestHandler c s f = s.afterReply f.tag .badLen := by
  have refuse : ∀ {α : Type} {operands : Except Status α} {checks : α → List (Bool × Status)}
      {effect : α → State}, operands = .error .badLen →
      s.perform f.tag operands checks effect = s.afterReply f.tag .badLen := by
    rintro α _ checks effect rfl
    exact State.perform_error s f.tag .badLen checks effect
  cases c with
  | identify | status | getScan | restart | getChannel | clearKey | getKey | setEvents | setMode | cancel
  | measure | setTiming | setChannel =>
    unfold requestHandler
    refine refuse ?_
    exact if_neg h
  | setKey => exact refuse (if_neg (mt (setKeyLengthOk_iff _).1 h))
  | setScan => exact refuse (if_neg (mt (setScanLengthOk_iff _).1 h))
  | calibrate => exact refuse (if_neg (mt (calibrateLengthOk_iff _).1 h))
  | _ => exact absurd trivial h

/-! ## Commands out of place -/

section
variable {s : State}

theorem State.settleEnd_out {e : EngineId} (h : ∀ r timer, s.engine e ≠ .settle r timer) :
    s.settleEnd e = s := by
  unfold State.settleEnd
  split
  · exact absurd ‹_› (h _ _)
  all_goals rfl

theorem State.halfWindowEnd_out {e : EngineId} (n : Nat)
    (h : ∀ r timer counter, s.engine e ≠ .half1 r timer counter) : s.halfWindowEnd e n = s := by
  unfold State.halfWindowEnd
  split
  · exact absurd ‹_› (h _ _ _)
  all_goals rfl

theorem State.burstComplete_out {e : EngineId} (n : Nat)
    (h : ∀ r timer counter c1, s.engine e ≠ .half2 r timer counter c1) : s.burstComplete e n = s := by
  unfold State.burstComplete
  split
  · exact absurd ‹_› (h _ _ _ _)
  all_goals rfl

theorem State.inactivityExpiry_out (h : ∀ ms, s.sched.inactivity ≠ .running ms) :
    s.inactivityExpiry = s := by
  unfold State.inactivityExpiry
  split
  · exact absurd ‹_› (h _)
  all_goals rfl

theorem State.maxOnExpiry_out {c : ChannelNo} (h : (s.chan c).maxOn = none) : s.maxOnExpiry c = s := by
  simp [State.maxOnExpiry, h]

/-- A byte of a read goes out outside a read (R141, R143). -/
theorem State.readEvents_out (h : ∀ tr, s.link.transaction ≠ .read tr) :
    s.flagsByteStart = s ∧ s.headRetire = s := by
  unfold State.flagsByteStart State.headRetire
  cases ht : s.link.transaction with
  | read tr => exact absurd ht (h tr)
  | none | write => exact ⟨rfl, rfl⟩

end

end Sys2Proof.Machine

namespace Sys2Proof

open Machine

/-- Settles O4: each command out of place falls under the branch of its meaning that does nothing. -/
theorem commandsOutOfPlaceAreDisregarded : Obligations.CommandsOutOfPlaceAreDisregarded := by
  refine ⟨fun c code s hc h => exec_request_untaken hc h, fun s => ⟨fun e h => ?_, fun e n h => ?_,
    fun e n h => ?_, fun h => ?_, fun h => ?_, fun n h => ?_, fun a h => ?_, fun h => ?_,
    fun tr b h => ?_, fun b h => ?_, fun a1 a0 h => ?_⟩⟩
  · exact congrArg _ (State.settleEnd_out h)
  · exact congrArg _ (State.halfWindowEnd_out n h)
  · exact congrArg _ (State.burstComplete_out n h)
  · simp [exec, execPeriodExpiry, State.periodExpiry, h]
  · exact congrArg _ (State.inactivityExpiry_out h)
  · by_cases hn : n < 24
    · exact (exec_maxOnExpiry ⟨n, hn⟩ s).trans (congrArg _ (State.maxOnExpiry_out (h ⟨n, hn⟩ rfl)))
    · exact congrArg Host.Outcome.next (dif_neg hn)
  · exact ⟨congrArg _ (if_pos (.inr h)), congrArg _ (if_pos (.inr h))⟩
  · obtain ⟨flags, retire⟩ := State.readEvents_out h
    exact ⟨congrArg _ flags, congrArg _ retire⟩
  · simp [exec, execWriteByte, State.writeByte, h]
  · simp [exec, execWriteByte, State.writeByte, State.withLink, h]
  · simp [exec, execResetRelease, State.resetRelease, h]

/-- Settles O5: every request but RESTART is answered, and a RESTART that is not refused leaves READY at the
tail. -/
theorem refusedRequestChangesNothing : Obligations.RefusedRequestChangesNothing := by
  intro c code s t i f tag status data hc ht run last notOk notAccepted
  rw [exec_request_taken hc ht] at run
  cases run
  have answered : (s.afterTake i).AnsweredBy (requestHandler c (s.afterTake i) f) f.tag := by
    by_cases hr : c = .restart
    · subst hr
      refine ((s.afterTake i).doRestart_cases f).resolve_right fun restarted => ?_
      have ready := last
      rw [requestHandler, restarted] at ready
      cases ready
    · exact requestHandler_answered (.inl hc) hr _ f
  obtain ⟨v, status', data', answer, -, refused⟩ := answered
  rw [answer] at last ⊢
  simp only [State.afterReply, State.afterAdmit, List.getLast?_concat, Option.map_some, Option.some.injEq,
    Body.reply.injEq] at last
  obtain ⟨rfl, rfl, rfl⟩ := last
  obtain ⟨rfl, rfl⟩ := refused notOk notAccepted
  exact ⟨rfl, rfl, rfl⟩

/-- Settles O6: the REPLY joins behind what the moves of the request post, which is no REPLY. -/
theorem eachRequestAnsweredOnce : Obligations.EachRequestAnsweredOnce := by
  intro c code s t i f hc hr ht run
  have taken : exec c s = .next (requestHandler c (s.afterTake i) f) := by
    rcases hc with hc | ⟨rfl, hn⟩
    · exact exec_request_taken hc ht
    · exact exec_unknownRequest_taken ht hn
  rw [taken] at run
  cases run
  obtain ⟨v, status, data, answer, same, -⟩ :=
    requestHandler_answered (hc.imp_right And.left) hr (s.afterTake i) f
  rw [answer]
  refine ⟨⟨v.queue.entries.map Entry.body, status, data, ?_⟩, ?_⟩
  · exact List.map_append
  · have counted : (v.afterReply f.tag status data).queue.replies = v.queue.replies + 1 :=
      List.countP_append
    exact counted.trans (congrArg (· + 1) same)

/-- Settles O7: the CODE first, then the length that the CODE accepts. -/
theorem earliestChecksRefuse : Obligations.EarliestChecksRefuse := by
  refine ⟨fun s i f ht hn => ?_, fun c code s i f hc ht h => ?_⟩
  · have unknown : requestCodes.contains f.code = false :=
      Bool.eq_false_iff.2 fun h => hn (List.contains_iff_mem.1 h)
    exact exec_unknownRequest_taken ht unknown
  · rw [exec_request_taken hc ht, requestHandler_badLen h]

end Sys2Proof
end

section
/-! The requests that report the part, and those that write keys, lists and settings: IDENTIFY, STATUS,
CLEAR_KEY, GET_KEY, SET_SCAN, GET_SCAN, SET_TIMING and SET_EVENTS (O8, O9, O15 to O17). -/

-- One proof at a time: each proof elaborated beside another takes a thread, whose stack counts as data.
set_option Elab.async false

namespace Sys2Proof.Machine

/-! ## Fields of several bytes (R163) -/

theorem ofNat_shift_eq_extractLsb' {w : Nat} (x : BitVec w) (k : Nat) :
    BitVec.ofNat 8 (x.toNat / 2 ^ k) = x.extractLsb' k 8 := by
  apply BitVec.eq_of_toNat_eq
  simp [BitVec.extractLsb'_toNat, Nat.shiftRight_eq_div_pow]

theorem be32_toNat (x : BitVec 32) :
    be32 x.toNat
      = [x.extractLsb' 24 8, x.extractLsb' 16 8, x.extractLsb' 8 8, x.extractLsb' 0 8] := by
  rw [← ofNat_shift_eq_extractLsb' x 24, ← ofNat_shift_eq_extractLsb' x 16,
    ← ofNat_shift_eq_extractLsb' x 8, ← ofNat_shift_eq_extractLsb' x 0]
  simp [be32, be24, be16]

theorem wordAt_append (p : List Byte) (i : Nat) :
    wordAt p i = (p.getD i 0 ++ p.getD (i + 1) 0).toNat := by
  rw [BitVec.toNat_append]
  unfold wordAt byteAt
  generalize p.getD i 0 = hi, p.getD (i + 1) 0 = lo
  rw [← Nat.shiftLeft_add_eq_or_of_lt lo.isLt, Nat.shiftLeft_eq]

/-! ## What a payload reads as -/

theorem parseKey_of_val {b : Byte} {k : KeyNo} (h : k.val = b.toNat) : parseKey [b] = .ok k := by
  have named : keyOf (byteAt [b] 0) = some k := by
    rw [show byteAt [b] 0 = k.val from h.symm, keyOf_val]
  unfold parseKey
  rw [if_pos List.length_singleton, named]

theorem parseKey_of_ge {b : Byte} (h : 16 ≤ b.toNat) : parseKey [b] = .error .range := by
  have unnamed : keyOf (byteAt [b] 0) = none := keyOf_of_lt h
  unfold parseKey
  rw [if_pos List.length_singleton, unnamed]

theorem parseEmpty_nil {p : List Byte} (h : p = []) : parseEmpty p = .ok () := by
  rw [h]
  rfl

/-- Bytes that read as scan-list entries name a channel and a yes or no each (R163, R176). -/
theorem scanEntryList_inRange :
    ∀ {bytes : List Byte} {es : List ScanEntry}, scanEntryList bytes = some es →
      ∀ j, 2 * j + 1 < bytes.length →
        (bytes.getD (2 * j) 0).toNat ≤ 23 ∧ (bytes.getD (2 * j + 1) 0).toNat ≤ 1
  | b :: flag :: rest, es, h, j, hj => by
    unfold scanEntryList at h
    split at h
    · rename_i c es' hc hes
      split at h
      · rename_i yes
        cases j with
        | zero =>
          refine ⟨?_, of_decide_eq_true yes⟩
          by_contra out
          rw [List.getD_cons_zero] at out
          rw [channelOf_of_lt (Nat.lt_of_not_le out)] at hc
          cases hc
        | succ j => exact scanEntryList_inRange hes j (by simp at hj; omega)
      · cases h
    · cases h

/-- A SET_SCAN with a count or a value out of its range is RANGE (R176). -/
theorem parseSetScan_range {n : Nat} {rest : List Byte} (hn : n ≤ 29) (hl : rest.length = 2 * n)
    (out : 24 < n ∨ ∃ j, j < n
      ∧ (24 ≤ (rest.getD (2 * j) 0).toNat ∨ 1 < (rest.getD (2 * j + 1) 0).toNat)) :
    parseSetScan (BitVec.ofNat 8 n :: rest) = .error .range := by
  have count : byteAt (BitVec.ofNat 8 n :: rest) 0 = n := toNat_ofNat8 (by omega)
  have accepted : setScanLengthOk (BitVec.ofNat 8 n :: rest) = true := by
    simp only [setScanLengthOk, inRange, count, List.length_cons, hl, Bool.and_eq_true,
      decide_eq_true_eq]
    omega
  unfold parseSetScan
  rw [if_pos accepted, count, List.drop_one, List.tail_cons]
  split
  · rename_i es hes
    refine if_neg fun fits => ?_
    obtain ⟨j, hj, wrong⟩ := out.resolve_left (by omega)
    have inRange := scanEntryList_inRange hes j (by omega)
    omega
  · rfl

/-- The three settings of a SET_TIMING (R112, R177). -/
theorem parseSetTiming_eq (a1 a0 d1 d0 idle : Byte) :
    parseSetTiming [a1, a0, d1, d0, idle]
      = if 5 ≤ (a1 ++ a0).toNat ∧ (a1 ++ a0).toNat ≤ 1000 ∧ 20 ≤ (d1 ++ d0).toNat
            ∧ (d1 ++ d0).toNat ≤ 2000 then
          .ok
            { activePeriod := (a1 ++ a0).toNat, dozePeriod := (d1 ++ d0).toNat, idleTime := idle.toNat }
        else .error .range := by
  have active : wordAt [a1, a0, d1, d0, idle] 0 = (a1 ++ a0).toNat := wordAt_append _ 0
  have doze : wordAt [a1, a0, d1, d0, idle] 2 = (d1 ++ d0).toNat := wordAt_append _ 2
  unfold parseSetTiming
  rw [if_pos (by rfl), active, doze]
  refine if_congr ?_ rfl rfl
  simp only [inRange, Bool.and_eq_true, decide_eq_true_eq, and_assoc]

/-! ## The requests -/

section
variable {s : State} {f : Frame} {b : Byte} {k : KeyNo} {es : List ScanEntry}

theorem State.doIdentify_eq (hp : f.payload = []) (s : State) :
    s.doIdentify f = s.afterReply f.tag .ok (.identity s.link.address) := by
  unfold State.doIdentify
  rw [parseEmpty_nil hp]
  exact State.perform_of_passed rfl

theorem State.doStatus_eq (hp : f.payload = []) (s : State) :
    s.doStatus f
      = s.afterReply f.tag .ok
          (.status s.sched.mode s.lastCause s.held s.table.length s.queue.lost s.sched.overruns
            s.sched.cycleCount) := by
  unfold State.doStatus
  rw [parseEmpty_nil hp]
  exact State.perform_of_passed rfl

/-- CLEAR_KEY outside STOPPED is STATE, and in STOPPED undefines the key (R175). -/
theorem State.doClearKey_eq (hp : f.payload = [b]) (hk : k.val = b.toNat) (s : State) :
    s.doClearKey f
      = if s.sched.mode = .stopped then (s.setKeyRecord k none).afterReply f.tag .ok
        else s.afterReply f.tag .state := by
  unfold State.doClearKey
  rw [hp, parseKey_of_val hk]
  split
  · rename_i stopped
    exact State.perform_of_passed (by simp [State.notStopped, stopped])
  · rename_i running
    exact State.perform_of_failed (by simp [State.notStopped, running])

theorem State.doClearKey_range (hp : f.payload = [b]) (h : 16 ≤ b.toNat) (s : State) :
    s.doClearKey f = s.afterReply f.tag .range := by
  unfold State.doClearKey
  rw [hp, parseKey_of_ge h, State.perform_error]

theorem State.doGetKey_eq (hp : f.payload = [b]) (hk : k.val = b.toNat) (s : State) :
    s.doGetKey f = s.afterReply f.tag .ok (.key k (s.key k)) := by
  unfold State.doGetKey
  rw [hp, parseKey_of_val hk]
  exact State.perform_of_passed rfl

theorem State.doGetKey_range (hp : f.payload = [b]) (h : 16 ≤ b.toNat) (s : State) :
    s.doGetKey f = s.afterReply f.tag .range := by
  unfold State.doGetKey
  rw [hp, parseKey_of_ge h, State.perform_error]

/-- The layout of a key record (R115; chapter 9, reply bodies). -/
theorem keyView_eq (k : KeyNo) (x : Option Key) :
    keyView k x
      = match x with
        | none => [BitVec.ofNat 8 k.val, 0]
        | some r =>
          [BitVec.ofNat 8 k.val, 1, match r.kind with | .button => 0 | .slider => 1,
            BitVec.ofNat 8 (r.group.getD 0), BitVec.ofNat 8 (r.slideStep.getD 0),
            match r.state with | .released => 0 | .pressed => 1,
            if r.lastPosition.isSome then 1 else 0, BitVec.ofNat 8 (r.lastPosition.getD 0),
            BitVec.ofNat 8 r.channels.length]
            ++ r.channels.map (fun c : ChannelNo => BitVec.ofNat 8 c.val) := by
  cases x with
  | none => rfl
  | some r => rfl

/-- A SET_SCAN that reads well is STATE outside STOPPED, CONFLICT for a channel listed twice, or replaces
the list (R176). -/
theorem State.doSetScan_eq (hp : parseSetScan f.payload = .ok es) (s : State) :
    s.doSetScan f
      = if s.sched.mode ≠ .stopped then s.afterReply f.tag .state
        else if ¬ (es.map ScanEntry.channel).Nodup then s.afterReply f.tag .conflict
        else (s.withSched fun d => { d with scanList := es }).afterReply f.tag .ok := by
  unfold State.doSetScan
  rw [hp]
  split
  · rename_i running
    exact State.perform_of_failed (by simp [State.notStopped, running])
  · rename_i stopped
    rw [not_not] at stopped
    split
    · rename_i twice
      exact State.perform_of_failed (by simp [State.notStopped, stopped, hasRepeat_eq, twice])
    · rename_i once
      rw [not_not] at once
      exact State.perform_of_passed (by simp [State.notStopped, stopped, hasRepeat_eq, once])

theorem State.doGetScan_eq (hp : f.payload = []) (s : State) :
    s.doGetScan f = s.afterReply f.tag .ok (.scanList s.sched.scanList) := by
  unfold State.doGetScan
  rw [parseEmpty_nil hp]
  exact State.perform_of_passed rfl

theorem State.doSetTiming_eq {a1 a0 d1 d0 idle : Byte} (hp : f.payload = [a1, a0, d1, d0, idle])
    (s : State) :
    s.doSetTiming f
      = if 5 ≤ (a1 ++ a0).toNat ∧ (a1 ++ a0).toNat ≤ 1000 ∧ 20 ≤ (d1 ++ d0).toNat
            ∧ (d1 ++ d0).toNat ≤ 2000 then
          (s.withSched fun d =>
            { d with
              activePeriod := (a1 ++ a0).toNat, dozePeriod := (d1 ++ d0).toNat,
              idleTime := idle.toNat }).afterReply f.tag .ok
        else s.afterReply f.tag .range := by
  unfold State.doSetTiming
  rw [hp, parseSetTiming_eq]
  split
  · exact State.perform_of_passed rfl
  · exact State.perform_error _ _ _ _ _

theorem State.doSetEvents_eq (hp : f.payload = [b]) (s : State) :
    s.doSetEvents f
      = ({ s with queue := { s.queue with mask := b } } : State).afterReply f.tag .ok := by
  unfold State.doSetEvents
  rw [hp]
  exact State.perform_of_passed rfl

end

end Sys2Proof.Machine

namespace Sys2Proof

open Machine

/-- Settles O8. -/
theorem identifyReportsThePart : Obligations.IdentifyReportsThePart := by
  intro s i f ht hp
  refine ⟨?_, rfl⟩
  rw [exec_request_taken rfl ht, requestHandler, State.doIdentify_eq hp, State.afterTake_address]

/-- Settles O9: the values before the REPLY, in the layout of its body. -/
theorem statusReportsSevenValues : Obligations.StatusReportsSevenValues := by
  intro s i f ht hp
  refine ⟨_, (exec_request_taken rfl ht).trans (congrArg _ (State.doStatus_eq hp _)), ?_⟩
  simp only [ReplyData.bytes, be16, be32_toNat]
  rfl

/-- Settles O15. -/
theorem clearKeyAndGetKey : Obligations.ClearKeyAndGetKey := by
  refine fun s i f b hp => ⟨fun ht => ⟨fun h => ?_, fun k hk => ?_⟩,
    fun ht => ⟨fun h => ?_, fun k hk => ⟨?_, ?_⟩⟩⟩
  · rw [exec_request_taken rfl ht, requestHandler, State.doClearKey_range hp h]
  · rw [exec_request_taken rfl ht, requestHandler, State.doClearKey_eq hp hk, State.afterTake_sched]
  · rw [exec_request_taken rfl ht, requestHandler, State.doGetKey_range hp h]
  · rw [exec_request_taken rfl ht, requestHandler, State.doGetKey_eq hp hk, State.afterTake_key]
  · have layout := keyView_eq k (s.key k)
    rw [show (Body.reply f.tag .ok (.key k (s.key k))).bytes
      = [f.tag, 0x00] ++ keyView k (s.key k) from rfl, layout]
    cases s.key k <;> rfl

/-- Settles O16: out of range the payload does not read, and in range it reads as the list it spells. -/
theorem setScanAndGetScan : Obligations.SetScanAndGetScan := by
  refine fun s i f => ⟨fun n rest ht hn hl hp out => ?_, fun es ht hl hp => ?_, fun ht hp => ⟨?_, ?_⟩⟩
  · rw [exec_request_taken rfl ht, requestHandler, State.doSetScan, hp, parseSetScan_range hn hl out,
      State.perform_error]
  · rw [exec_request_taken rfl ht, requestHandler,
      State.doSetScan_eq (hp ▸ parseSetScan_spelled es hl), State.afterTake_sched]
    rfl
  · rw [exec_request_taken rfl ht, requestHandler, State.doGetScan_eq hp, State.afterTake_sched]
  · rfl

/-- Settles O17. -/
theorem setTimingAndSetEvents : Obligations.SetTimingAndSetEvents := by
  refine fun s i f => ⟨fun a1 a0 d1 d0 idle ht hp => ?_, fun m ht hp => ?_⟩
  · rw [exec_request_taken rfl ht, requestHandler, State.doSetTiming_eq hp]
    rfl
  · rw [exec_request_taken rfl ht, requestHandler, State.doSetEvents_eq hp]
    rfl

end Sys2Proof
end

section
/-! MEASURE: its checks in their order, the entry it opens, and the burst that the first SERVICE cycle makes
for it (O22). -/

-- One proof at a time: each proof elaborated beside another takes a thread, whose stack counts as data.
set_option Elab.async false

namespace Sys2Proof.Machine

/-! ## The checks -/

/-- The status that refuses a MEASURE of a channel, if one does (R166, R181). -/
def State.measureRefusal (s : State) (tag : Byte) (c : ChannelNo) (slot count : Byte) : Option Status :=
  if count = 0 ∨ 12 < count.toNat ∨ (s.chan c).config.hopList.length ≤ slot.toNat then some .range
  else if (s.chan c).state = .off then some .state
  else if (s.chan c).state = .calibrating ∨ ∃ e ∈ s.table, e.work.measured = some c then some .busy
  else if 4 ≤ s.table.length then some .full
  else if ∃ e ∈ s.table, e.tag = tag then some .tagInUse
  else none

section
variable {s : State} {tag : Byte} {c : ChannelNo} {b slot count : Byte} {f : Frame}

theorem parseMeasure_of_ge (h : 23 < b.toNat) : parseMeasure [b, slot, count] = .error .range := by
  have unnamed : channelOf (byteAt [b, slot, count] 0) = none := channelOf_of_lt h
  unfold parseMeasure
  rw [if_pos (by rfl), unnamed]

theorem parseMeasure_of_val (hc : c.val = b.toNat) :
    parseMeasure [b, slot, count]
      = if count = 0 ∨ 12 < count.toNat then .error .range
        else .ok { channel := c, slot := slot.toNat, count := count.toNat } := by
  have named : channelOf (byteAt [b, slot, count] 0) = some c := by
    rw [show byteAt [b, slot, count] 0 = c.val from hc.symm, channelOf_val]
  have zero : count = 0 ↔ count.toNat = 0 := (BitVec.toNat_inj (y := 0)).symm
  have counted : inRange 1 12 (byteAt [b, slot, count] 2) = true ↔ ¬ (count = 0 ∨ 12 < count.toNat) := by
    rw [show byteAt [b, slot, count] 2 = count.toNat from rfl, zero]
    simp only [inRange, Bool.and_eq_true, decide_eq_true_eq]
    omega
  unfold parseMeasure
  rw [if_pos (by rfl), named]
  exact (if_congr counted rfl rfl).trans (ite_not ..)

/-- The checks of MEASURE behind its payload, in their order (R166, R181). -/
theorem State.measureChecks_eq (hn : ¬ (count = 0 ∨ 12 < count.toNat)) (s : State) (tag : Byte)
    (c : ChannelNo) (slot : Byte) :
    firstFailure
        (s.measureChecks tag { channel := c, slot := slot.toNat, count := count.toNat })
      = s.measureRefusal tag c slot count := by
  unfold State.measureChecks State.tableChecks State.measureRefusal
  simp only [List.cons_append, List.nil_append, firstFailure_cons, firstFailure_nil]
  refine if_congr ?_ rfl (if_congr ?_ rfl (if_congr ?_ rfl (if_congr ?_ rfl (if_congr ?_ rfl rfl))))
  · rw [← or_assoc, or_iff_right hn]
    exact decide_eq_true_iff
  · exact beq_iff_eq
  · exact s.channelBusy_iff c
  · exact decide_eq_true_iff
  · simp [State.entryOfTag]

/-- A MEASURE of a channel above 23 is RANGE (R181). -/
theorem State.doMeasure_range (hp : f.payload = [b, slot, count]) (h : 23 < b.toNat) (s : State) :
    s.doMeasure f = s.afterReply f.tag .range := by
  unfold State.doMeasure
  rw [hp, parseMeasure_of_ge h, State.perform_error]

/-- A MEASURE is refused by the first check that fails, or opens its entry and signals the work (R165,
R181). -/
theorem State.doMeasure_eq (hp : f.payload = [b, slot, count]) (hc : c.val = b.toNat) (s : State) :
    s.doMeasure f
      = match s.measureRefusal f.tag c slot count with
        | some status => s.afterReply f.tag status
        | none =>
          (s.openEntry f.tag (.measure c slot.toNat count.toNat [])).workTaken.afterReply f.tag
            .accepted := by
  unfold State.doMeasure
  rw [hp, parseMeasure_of_val hc]
  by_cases hn : count = 0 ∨ 12 < count.toNat
  · have range : s.measureRefusal f.tag c slot count = some .range :=
      if_pos (hn.imp_right .inl)
    rw [if_pos hn, range, State.perform_error]
  · rw [if_neg hn, State.perform_ok, State.measureChecks_eq hn]
    rfl

/-- What the passing of the checks establishes (R181). -/
theorem State.tag_free_of_measureRefusal (h : s.measureRefusal tag c slot count = none) :
    s.entryOfTag tag = none := by
  unfold State.measureRefusal at h
  split_ifs at h with _ _ _ _ used
  exact State.entryOfTag_eq_none.2 fun e he ht => used ⟨e, he, ht⟩

/-! ## The burst of the entry -/

/-- The entry that is opened is the one with its tag, where the tag was free (R168). -/
theorem State.entryOfTag_openEntry (h : s.entryOfTag tag = none) (work : LongWork) :
    (s.openEntry tag work).entryOfTag tag = some { tag := tag, work := work } := by
  unfold State.entryOfTag State.openEntry at *
  rw [List.find?_append, h]
  simp

/-- The MEASURE that is opened is dispatched with the record that R3 gives it (R88, R90). -/
theorem State.judgeItem_openEntry (h : s.entryOfTag tag = none) (c : ChannelNo) (slot count : Nat) :
    (s.openEntry tag (.measure c slot count [])).judgeItem (.measure c tag)
      = some ((s.chan c).burst c (.measure tag) slot (s.chan c).config.windowCode) := by
  have entry := State.entryOfTag_openEntry h (.measure c slot count [])
  simp only [State.judgeItem, entry, if_true]
  rfl

theorem State.hasBurst_openEntry (h : s.entryOfTag tag = none) (c : ChannelNo) (slot count : Nat)
    (kind : CycleKind) : (s.openEntry tag (.measure c slot count [])).HasBurst kind := by
  have listed : .measure c tag ∈ (s.openEntry tag (.measure c slot count [])).measurePart (engineOf c) :=
    (State.measurePart_eq_some _ _).2 ⟨_, List.mem_concat_self, c, rfl, rfl, rfl⟩
  refine ⟨engineOf c, _, List.mem_append_right _ listed, ?_⟩
  rw [State.judgeItem_openEntry h]
  rfl

/-- With no job, and one MEASURE for its work, a SERVICE cycle lists that MEASURE alone (R86, R88). -/
theorem State.buildList_of_lone_measure {p : PendingEntry} (hj : ∀ d, s.job d = none)
    (ht : s.table = [p]) (hm : p.work.measured = some c) (e : EngineId) :
    s.buildList .service e = if engineOf c = e then [.measure c p.tag] else [] := by
  have noCal : ∀ d, s.calItem d = none := fun d => by simp [State.calItem, hj]
  have scan : s.scanPart .service e = [] := rfl
  have cal : s.calPart .service e = [] := List.filterMap_eq_nil_iff.2 fun d _ => noCal d
  rw [State.buildList, scan, cal, State.measurePart, ht]
  by_cases own : engineOf c = e <;> simp [hm, own]

theorem PerEngine.ext_get {α : Type} {p q : PerEngine α} (h : ∀ e, p.get e = q.get e) : p = q := by
  cases p
  cases q
  exact PerEngine.mk.injEq .. |>.mpr ⟨h .a, h .b, h .c, h .d⟩

/-- The first SERVICE cycle of a MEASURE that has opened the only entry, from STOPPED: its burst is on the
channel's engine, and nothing else is listed (R85, R88, R89). -/
theorem State.startsCycle_of_lone_measure {t : State} {p : PendingEntry} {r : BurstRecord}
    (h : s.StartsCycle t .service) (hj : ∀ d, s.job d = none) (ht : s.table = [p]) (hm : p.work.measured = some c)
    (hr : s.judgeItem (.measure c p.tag) = some r) (hi : ∀ e, s.engine e = .idle) :
    t = { s with
          engines := s.engines.set (engineOf c) (.settle r 40)
          sched :=
            { s.sched with
              cycle :=
                some { kind := .service, lists := ⟨[], [], [], []⟩, late := false, startOwed := false } } } := by
  obtain ⟨engines, lists, rfl, each⟩ := h
  have offered : ∀ e, lists.get e = []
      ∧ engines.get e = if engineOf c = e then .settle r 40 else .idle := fun e => by
    obtain ⟨rest, taken⟩ := each e
    rw [State.buildList_of_lone_measure hj ht hm] at rest taken
    by_cases own : engineOf c = e
    · simpa [own, hr] using And.intro rest taken
    · simpa [own] using And.intro rest taken
  have noLists : lists = ⟨[], [], [], []⟩ := PerEngine.ext_get fun e => by
    rw [(offered e).1]
    cases e <;> rfl
  have oneBurst : engines = s.engines.set (engineOf c) (.settle r 40) := PerEngine.ext_get fun e => by
    rw [(offered e).2]
    split
    · rename_i own
      rw [own, PerEngine.get_set_self]
    · rename_i other
      rw [PerEngine.get_set_ne _ _ (Ne.symm other)]
      exact (hi e).symm
  rw [noLists, oneBurst]

end

end Sys2Proof.Machine

namespace Sys2Proof

open Machine

/-- Settles O22: the checks in their order, and the work that the opened entry is; from STOPPED that work is
the one burst of the cycle that starts. -/
theorem measureOpensItsEntry : Obligations.MeasureOpensItsEntry := by
  refine ⟨fun s i f b slot count ht hp => ⟨fun h => ?_, fun c hc => ?_⟩,
    fun s i f c slot count ht hp hslot h1 h12 hoff hcal hm hcy hi htable hj => ?_⟩
  · rw [exec_request_taken rfl ht, requestHandler, State.doMeasure_range hp h]
  · intro refusal opened
    have run := exec_request_taken (c := .measure) rfl ht
    rw [requestHandler, State.doMeasure_eq hp hc] at run
    refine ⟨fun status h => ?_, fun h => ?_⟩
    · rwa [show (s.afterTake i).measureRefusal f.tag c slot count = some status from h] at run
    · have passed : (s.afterTake i).measureRefusal f.tag c slot count = none := h
      rw [passed] at run
      exact ⟨_, State.workTaken_takes opened (State.hasBurst_openEntry
        (State.tag_free_of_measureRefusal passed) c slot.toNat count.toNat .service), run⟩
  · have free : (s.afterTake i).entryOfTag f.tag = none := by
      rw [State.entryOfTag_eq_none, State.afterTake_table, htable]
      exact List.forall_mem_nil _
    have passed : (s.afterTake i).measureRefusal f.tag c slot count = none := by
      have counted : count ≠ 0 := by
        rintro rfl
        exact absurd h1 (by decide)
      simp only [State.measureRefusal, State.afterTake_chan, State.afterTake_table, htable, counted, hoff,
        hcal, Nat.not_lt.2 h12, Nat.not_le.2 hslot]
      simp
    have burst := State.hasBurst_openEntry free c slot.toNat count.toNat .service
    have dispatched := State.judgeItem_openEntry free c slot.toNat count.toNat
    have entries : ((s.afterTake i).openEntry f.tag (.measure c slot.toNat count.toNat [])).table
        = [{ tag := f.tag, work := .measure c slot.toNat count.toNat [] }] :=
      congrArg (· ++ _) htable
    have starts := (State.workTaken_takes _ burst).1 hm hcy hi
    have run := exec_request_taken (c := .measure) rfl ht
    rw [requestHandler, State.doMeasure_eq hp (toNat_ofNat8 (by omega)).symm, passed] at run
    rw [run, State.startsCycle_of_lone_measure starts hj entries rfl dispatched hi]
    simp only [State.openEntry, State.afterTake_table, htable]
    rfl

end Sys2Proof
end

section
/-! CANCEL: of a CALIBRATE, whose jobs end with their results in the entry; and of a MEASURE, whose burst is
abandoned and whose channel may then be given an automatic job (O23). -/

-- One proof at a time: each proof elaborated beside another takes a thread, whose stack counts as data.
set_option Elab.async false

namespace Sys2Proof.Machine

section
variable {s : State} {f : Frame} {tag : Byte} {e : PendingEntry}

/-! ## The request -/

theorem State.doCancel_notFound (hp : f.payload = [tag]) (h : s.entryOfTag tag = none) :
    s.doCancel f = s.afterReply f.tag .notFound := by
  have read : parseByte f.payload = .ok tag := by
    rw [hp]
    rfl
  unfold State.doCancel
  rw [read, State.perform_of_failed (status := .notFound) (by simp [h])]

theorem State.doCancel_found (hp : f.payload = [tag]) (h : s.entryOfTag tag = some e) :
    s.doCancel f = (s.cancelEntry e).afterReply f.tag .ok := by
  have read : parseByte f.payload = .ok tag := by
    rw [hp]
    rfl
  unfold State.doCancel
  rw [read, State.perform_of_passed (by simp [h]), h]
  rfl

/-- A completed entry leaves the table, and its COMPLETE joins the queue (R169). -/
theorem State.completeEntry_eq (hn : (s.table.map PendingEntry.tag).Nodup) (he : e ∈ s.table)
    (status : Status) :
    s.completeEntry e status
      = { s.afterAdmit (.complete e.tag status e.work) with
          table := s.table.filter fun x => x.tag != e.tag } := by
  unfold State.completeEntry
  rw [table_erase_filter hn he]
  rfl

end

/-! ## The CANCEL of a CALIBRATE (R79, R183) -/

section
variable {s : State} {tag : Byte} {before after : List PendingEntry} {subjects cs : List ChannelNo}
  {results : List CalResult} {c : ChannelNo}

/-- A request's job that ends ABORTED gives its result to the entry (R77, R79). -/
theorem State.abortJob_request (hn : (s.table.map PendingEntry.tag).Nodup)
    (ht : s.table = before ++ { tag := tag, work := .calibrate subjects results } :: after)
    (hr : s.runsFor tag c = true) :
    s.abortJob c
      = { (s.setChan c (s.chan c).calibrationFails).setJob c none with
          table :=
            before
              ++ { tag := tag, work := .calibrate subjects (results ++ [s.abortedResult c]) }
                :: after } := by
  obtain ⟨j, hj, ho⟩ := State.originOf_eq_some.1 (State.runsFor_iff.1 hr)
  unfold State.abortJob
  rw [hj]
  dsimp only
  rw [State.endJob_request s c ho, State.appendResult_between (s := s.jobEnded c _ []) hn ht]
  rfl

/-- Several jobs of one request end ABORTED, and their results join the entry in order (R77, R79). -/
theorem State.abortJobs_request (hcs : cs.Nodup) (hn : (s.table.map PendingEntry.tag).Nodup)
    (ht : s.table = before ++ { tag := tag, work := .calibrate subjects results } :: after)
    (hr : ∀ c ∈ cs, s.runsFor tag c = true) :
    (∀ c, (cs.foldl State.abortJob s).chan c
        = if c ∈ cs then (s.chan c).calibrationFails else s.chan c)
      ∧ (∀ c, (cs.foldl State.abortJob s).job c = if c ∈ cs then none else s.job c)
      ∧ { cs.foldl State.abortJob s with channels := s.channels, jobs := s.jobs }
        = { s with
            table :=
              before
                ++ { tag := tag, work := .calibrate subjects (results ++ cs.map s.abortedResult) }
                  :: after } := by
  induction cs generalizing s results with
  | nil =>
    refine ⟨fun _ => rfl, fun _ => rfl, ?_⟩
    rw [List.map_nil, List.append_nil, ← ht]
    rfl
  | cons c rest ih =>
    obtain ⟨hc, hrest⟩ := List.nodup_cons.1 hcs
    have behind : ∀ d ∈ rest, d ≠ c := fun d hd he => hc (he ▸ hd)
    have first := State.abortJob_request hn ht (hr c List.mem_cons_self)
    have chan : ∀ d, d ≠ c → (s.abortJob c).chan d = s.chan d := fun d hd => by
      rw [first]
      exact s.chan_setChan_ne _ hd
    have job : ∀ d, d ≠ c → (s.abortJob c).job d = s.job d := fun d hd => by
      rw [first]
      exact s.job_setJob_ne none hd
    have ownChan : (s.abortJob c).chan c = (s.chan c).calibrationFails := by
      rw [first]
      exact s.chan_setChan_self c _
    have ownJob : (s.abortJob c).job c = none := by
      rw [first]
      exact s.job_setJob_self c none
    have table : (s.abortJob c).table
        = before ++ { tag := tag, work := .calibrate subjects (results ++ [s.abortedResult c]) } :: after := by
      rw [first]
    have tags : ((s.abortJob c).table.map PendingEntry.tag).Nodup := by
      rw [ht] at hn
      rw [table]
      simpa only [List.map_append, List.map_cons] using hn
    obtain ⟨chans, jobs, others⟩ := ih hrest tags table fun d hd => by
      rw [State.runsFor, job d (behind d hd)]
      exact hr d (List.mem_cons_of_mem c hd)
    have given : rest.map (s.abortJob c).abortedResult = rest.map s.abortedResult :=
      List.map_congr_left fun d hd => by rw [State.abortedResult, chan d (behind d hd), State.abortedResult]
    rw [List.foldl_cons]
    refine ⟨fun d => ?_, fun d => ?_, ?_⟩
    · rw [chans]
      by_cases hd : d = c
      · simp [hd, hc, ownChan]
      · simp [hd, chan d hd]
    · rw [jobs]
      by_cases hd : d = c
      · simp [hd, hc, ownJob]
      · simp [hd, job d hd]
    · have rest := congrArg (fun u : State => { u with channels := s.channels, jobs := s.jobs }) others
      rw [given, List.append_assoc, List.singleton_append, ← List.map_cons, first] at rest
      rw [first]
      exact rest

theorem State.jobsOfTag_eq (s : State) (tag : Byte) : s.jobsOfTag tag = s.runningOf tag := rfl

/-- The entry completes CANCELLED with all its results, and its channels are UNCAL with no job (R79, R183). -/
theorem State.cancelCalibrate_eq (hn : (s.table.map PendingEntry.tag).Nodup)
    (he : { tag := tag, work := .calibrate subjects results } ∈ s.table) :
    (∀ c, (s.cancelCalibrate tag).chan c
        = if c ∈ s.runningOf tag then (s.chan c).calibrationFails else s.chan c)
      ∧ (∀ c, (s.cancelCalibrate tag).job c = if c ∈ s.runningOf tag then none else s.job c)
      ∧ { s.cancelCalibrate tag with channels := s.channels, jobs := s.jobs }
        = { s.afterAdmit
              (.complete tag .cancelled
                (.calibrate subjects (results ++ (s.runningOf tag).map s.abortedResult))) with
            table := s.table.filter fun e => e.tag != tag } := by
  obtain ⟨before, after, ht⟩ := List.append_of_mem he
  have left : s.table.filter (fun e => e.tag != tag) = before ++ after := by
    rw [← table_erase_filter hn he, ht, table_erase (ht ▸ hn)]
  obtain ⟨chans, jobs, others⟩ := State.abortJobs_request (cs := s.runningOf tag)
    ((List.nodup_finRange 24).filter _) hn ht fun c hc => (List.mem_filter.1 hc).2
  have table := congrArg State.table others
  dsimp only at table
  have tags : (((s.runningOf tag).foldl State.abortJob s).table.map PendingEntry.tag).Nodup := by
    rw [ht] at hn
    rw [table]
    simpa only [List.map_append, List.map_cons] using hn
  obtain ⟨entry, -⟩ := State.entryOfTag_between tags table
  have completed : s.cancelCalibrate tag
      = { ((s.runningOf tag).foldl State.abortJob s).afterAdmit
            (.complete tag .cancelled
              (.calibrate subjects (results ++ (s.runningOf tag).map s.abortedResult))) with
          table := before ++ after } := by
    unfold State.cancelCalibrate State.abortJobsOfTag
    rw [State.jobsOfTag_eq]
    dsimp only at entry ⊢
    rw [entry]
    dsimp only
    unfold State.completeEntry
    rw [table] at tags ⊢
    rw [table_erase tags]
    rfl
  rw [completed, left]
  refine ⟨chans, jobs, ?_⟩
  exact congrArg
    (fun u : State =>
      { u.afterAdmit
          (.complete tag .cancelled
            (.calibrate subjects (results ++ (s.runningOf tag).map s.abortedResult))) with
        table := before ++ after }) others

end

/-! ## The CANCEL of a MEASURE (R17, R183) -/

section
variable {s t t' : State} {e : EngineId} {x : Engine} {cy : Cycle} {tag : Byte} {c : ChannelNo}

theorem Engine.measuresTag_iff (x : Engine) (tag : Byte) :
    x.measuresTag tag = true ↔ x.record?.map BurstRecord.purpose = some (.measure tag) := by
  unfold Engine.measuresTag
  cases x.record? <;> simp

/-- In a cycle that goes on, the signal of work is the same whatever an engine holds (R106, R107). -/
theorem State.WorkSignalled.setEngine (h : s.WorkSignalled t) (hc : s.sched.cycle = some cy)
    (hs : s.scanningNow) (h' : (s.setEngine e x).WorkSignalled t') : t' = t.setEngine e x := by
  rcases hs with active | doze
  · rw [h.2.1 active, h'.2.1 active]
    rfl
  · rw [(h.1 doze).1 cy hc, (h'.1 doze).1 cy hc]
    unfold State.wakened
    rfl

/-- The entry completes CANCELLED, and where no burst is in flight for it an automatic job may follow (R66,
R183). -/
theorem State.cancelMeasure_waiting {p : PendingEntry}
    (hm : (s.engine (engineOf c)).measuresTag p.tag = false) :
    s.cancelMeasure p c = (s.completeEntry p .cancelled).autoJobIfScanned c := by
  unfold State.cancelMeasure
  rw [hm]
  rfl

/-- The burst in flight is abandoned with the completion of its entry; its engine is free once an automatic
job has been asked for (R17, R66, R183). -/
theorem State.cancelMeasure_flying {p : PendingEntry}
    (hm : (s.engine (engineOf c)).measuresTag p.tag = true) :
    s.cancelMeasure p c
      = (((s.completeEntry p .cancelled).setEngine (engineOf c) .idle).autoJobIfScanned c).engineFree
          (engineOf c) := by
  unfold State.cancelMeasure
  rw [hm]
  rfl

variable {other : EngineId}

/-- With no job due, an engine is freed in a cycle that goes on, and nothing else happens (R66, R89). -/
theorem State.autoJobIfScanned_freed_undue (hc : s.sched.cycle = some cy) (hl : cy.lists.get e = [])
    (ho : other ≠ e) (hb : s.engine other ≠ .idle)
    (hd : ¬ (s.autoDue c ∧ s.listed c ∧ s.scanningNow)) :
    ((s.setEngine e .idle).autoJobIfScanned c).engineFree e = s.setEngine e .idle := by
  have undue : (s.setEngine e .idle).autoJobIfScanned c = s.setEngine e .idle :=
    ((s.setEngine e .idle).autoJobIfScanned_cases c).2 hd
  have busy : (s.setEngine e .idle).engine other ≠ .idle := by rwa [s.engine_setEngine_ne .idle ho]
  rw [undue, State.engineFree_of_busy (s.setEngine e .idle) e other cy hc hl ho busy]
  unfold State.setEngine
  rw [PerEngine.set_set]

/-- A job that is due is created and signalled before the engine is freed in a cycle that goes on (R66, R89,
R107). -/
theorem State.autoJobIfScanned_freed_due (hc : s.sched.cycle = some cy) (hl : cy.lists.get e = [])
    (ho : other ≠ e) (hb : s.engine other ≠ .idle)
    (hd : s.autoDue c ∧ s.listed c ∧ s.scanningNow) :
    ∃ v, (s.withAutoJob c).WorkSignalled v
      ∧ ((s.setEngine e .idle).autoJobIfScanned c).engineFree e
        = { v with engines := s.engines.set e .idle } := by
  have signalled := (s.autoJobIfScanned_cases c).1 hd
  have freed : ((s.withAutoJob c).setEngine e .idle).WorkSignalled
      ((s.setEngine e .idle).autoJobIfScanned c) :=
    ((s.setEngine e .idle).autoJobIfScanned_cases c).1 hd
  have same := signalled.setEngine (s := s.withAutoJob c) hc hd.2.2 freed
  obtain ⟨engines, cy', hc', hl'⟩ := signalled.inFlight (s := s.withAutoJob c) hc hd.2.2
  refine ⟨_, signalled, ?_⟩
  rw [same]
  generalize s.autoJobIfScanned c = v at engines hc'
  have busy : (v.setEngine e .idle).engine other ≠ .idle := by
    rw [v.engine_setEngine_ne .idle ho, State.engine, engines]
    exact hb
  rw [State.engineFree_of_busy (v.setEngine e .idle) e other cy' hc' (by rw [hl', hl]) ho busy]
  unfold State.setEngine
  rw [PerEngine.set_set, engines]
  rfl

end

end Sys2Proof.Machine

namespace Sys2Proof

open Machine

/-- Settles O23: the entry is found by its tag; the jobs of a CALIBRATE end one after the other, and the burst
of a MEASURE is abandoned where its engine holds it. -/
theorem cancelEndsItsEntry : Obligations.CancelEndsItsEntry := by
  refine ⟨fun s i f tag ht hp => ⟨fun h => ?_, fun subjects results kept he => ?_⟩,
    fun s i f tag c slot count results ht hp hn he => ?_⟩
  · have gone : (s.afterTake i).entryOfTag tag = none := State.entryOfTag_eq_none.2 h
    rw [exec_request_taken rfl ht, requestHandler, State.doCancel_notFound hp gone]
  · intro running
    have tags := kept.jobsServed.served.tags
    have entry := State.entryOfTag_of_mem (s := s.afterTake i) tags he
    have run := exec_request_taken (c := .cancel) rfl ht
    rw [requestHandler, State.doCancel_found hp entry] at run
    obtain ⟨chans, jobs, others⟩ := State.cancelCalibrate_eq (s := s.afterTake i) tags he
    exact ⟨_, run, chans, jobs, congrArg (fun u : State => u.afterReply f.tag .ok) others⟩
  · intro g measuring done due reply
    have entry := State.entryOfTag_of_mem (s := s.afterTake i) hn he
    have run := exec_request_taken (c := .cancel) rfl ht
    rw [requestHandler, State.doCancel_found hp entry] at run
    have completed : (s.afterTake i).completeEntry
        { tag := tag, work := .measure c slot count results } .cancelled = done :=
      State.completeEntry_eq (s := s.afterTake i) hn he .cancelled
    have holds : (s.engine g).measuresTag tag = true ↔ measuring := Engine.measuresTag_iff _ tag
    have cancelled : (s.afterTake i).cancelEntry { tag := tag, work := .measure c slot count results }
        = (s.afterTake i).cancelMeasure { tag := tag, work := .measure c slot count results } c := rfl
    rw [cancelled] at run
    have waiting : ¬ measuring → exec .cancel s = .next (reply (done.autoJobIfScanned c)) := fun hm => by
      rw [run, State.cancelMeasure_waiting (Bool.eq_false_iff.2 (mt holds.1 hm)), completed]
    have flying : measuring → exec .cancel s
        = .next (reply (((done.setEngine g .idle).autoJobIfScanned c).engineFree g)) := fun hm => by
      rw [run, State.cancelMeasure_flying (holds.2 hm), completed]
    refine ⟨fun hm hd => ?_, fun hm hd => ?_, fun cy other hm hc hl ho hb => ⟨fun hd => ?_, fun hd => ?_⟩⟩
    · rw [waiting hm, (done.autoJobIfScanned_cases c).2 hd]
    · exact ⟨_, (done.autoJobIfScanned_cases c).1 hd, waiting hm⟩
    · rw [flying hm, State.autoJobIfScanned_freed_undue (s := done) hc hl ho hb hd]
      rfl
    · obtain ⟨v, signalled, freed⟩ := State.autoJobIfScanned_freed_due (s := done) hc hl ho hb hd
      refine ⟨v, signalled, ?_⟩
      rw [flying hm, freed]
      rfl

end Sys2Proof
end

section
/-! The three resets: what holds while the pins keep the part in reset, and what a release or a RESTART leaves
(O51). -/

-- One proof at a time: each proof elaborated beside another takes a thread, whose stack counts as data.
set_option Elab.async false

namespace Sys2Proof.Machine

variable (s : State)

/-! ## In reset -/

/-- What a reset from the pins shows: nothing is driven, and the port answers no address (R8, R186). -/
structure State.SilentInReset (t : State) : Prop where
  atn : t.atnLow = false
  electrodes : ∀ n, t.electrodeDrive n = none
  transaction : t.link.transaction = .none
  sda : t.drivesSda = false
  addresses : ∀ a, exec (.writeAddress a) t = .next t ∧ exec (.readAddress a) t = .next t

theorem State.enterReset_inReset (cause : ResetCause) : (s.enterReset cause).inReset = some cause := rfl

theorem State.electrodeDrive_of_idle {n : ChannelNo} (h : s.engine (engineOf n) = .idle) :
    s.electrodeDrive n = none := by
  simp [State.electrodeDrive, h, Engine.record?]

theorem State.engine_enterReset (cause : ResetCause) (e : EngineId) :
    (s.enterReset cause).engine e = .idle := by
  cases e <;> rfl

/-- In reset the port disregards an address (R186). -/
theorem exec_address_inReset {s : State} {cause : ResetCause} (h : s.inReset = some cause) (a : BitVec 7) :
    exec (.writeAddress a) s = .next s ∧ exec (.readAddress a) s = .next s := by
  have disregards : s.inReset.isSome ∨ s.link.transaction ≠ .none := .inl (by rw [h]; rfl)
  exact ⟨congrArg Host.Outcome.next (if_pos disregards), congrArg Host.Outcome.next (if_pos disregards)⟩

theorem State.enterReset_silent (cause : ResetCause) : (s.enterReset cause).SilentInReset where
  atn := rfl
  electrodes n := State.electrodeDrive_of_idle _ (s.engine_enterReset cause (engineOf n))
  transaction := rfl
  sda := State.drivesSda_of_none rfl
  addresses := exec_address_inReset (s.enterReset_inReset cause)

/-- A pin reset that joins a power-on keeps its cause (R186). -/
theorem joinPinReset_eq (r : Option ResetCause) :
    joinPinReset r = if r = some .power then .power else .pin := by
  rcases r with - | cause
  · rfl
  · cases cause <;> rfl

/-! ## The reset state of the release and of RESTART -/

theorem State.blocksReset_afterReset (address : BitVec 7) (cause : ResetCause) (tag : Option Byte) :
    s.blocksReset (Queue.afterReset cause tag) address cause none = s.afterResetOf address cause tag := rfl

/-- The straps add to the base address (R149). -/
theorem strapAddress_eq (adr1 adr0 : Bool) :
    strapAddress adr1 adr0 = 0x64 + (if adr1 then 2 else 0) + (if adr0 then 1 else 0) := by
  cases adr1 <;> cases adr0 <;> decide

theorem exec_resetRelease {s : State} {cause : ResetCause} (h : s.inReset = some cause) (adr1 adr0 : Bool) :
    exec (.resetRelease adr1 adr0) s
      = .next (s.afterResetOf (0x64 + (if adr1 then 2 else 0) + (if adr0 then 1 else 0)) cause none) := by
  have release : s.resetRelease adr1 adr0
      = s.blocksReset (Queue.afterReset cause none) (strapAddress adr1 adr0) cause none := by
    simp only [State.resetRelease, h]
  rw [← strapAddress_eq, ← State.blocksReset_afterReset, ← release]
  rfl

theorem State.doRestart_eq {f : Frame} (hp : f.payload = []) : s.doRestart f = s.restarted f.tag := by
  unfold State.doRestart
  rw [parseEmpty_nil hp]
  exact State.perform_of_passed rfl

/-- RESTART resets the part as it was before its request was taken, and keeps the address (R184). -/
theorem State.restarted_afterTake (i : SlotId) (tag : Byte) :
    (s.afterTake i).restarted tag = s.afterResetOf s.link.address .restart (some tag) := by
  unfold State.restarted
  rw [State.blocksReset_afterReset, State.afterTake_address]
  rfl

end Sys2Proof.Machine

namespace Sys2Proof

open Machine

/-- Settles O51: each reset leaves the blocks at their reset values, and they differ in cause, address and
READY. -/
theorem resetsRestoreThePart : Obligations.ResetsRestoreThePart := by
  refine ⟨fun s => ⟨?power, ?pin, fun cause adr1 adr0 h => ⟨exec_resetRelease h adr1 adr0, rfl,
    fun address tag => State.drivesSda_of_none rfl⟩⟩, fun s i f ht hp => ?restart⟩
  case power =>
    have silent := s.enterReset_silent .power
    exact ⟨_, rfl, rfl, silent.atn, silent.electrodes, silent.transaction, silent.sda,
      silent.addresses⟩
  case pin =>
    have silent := s.enterReset_silent (joinPinReset s.inReset)
    exact ⟨_, rfl, congrArg some (joinPinReset_eq s.inReset), silent.atn, silent.electrodes,
      silent.transaction, silent.sda, silent.addresses⟩
  case restart =>
    rw [exec_request_taken (c := .restart) rfl ht, requestHandler, State.doRestart_eq _ hp,
      State.restarted_afterTake]

end Sys2Proof
end

section
/-! The commands that wait: a step takes the one at the front (O1), and no command stops the part or touches
the others (O3). Nothing of the blocks, the requests, the port or the resets writes the queue of commands;
each operation that unfolds into cases says so once, and the moves and the commands follow from these. -/

namespace Sys2Proof.Machine

variable {s t : State}

/-! ## The jobs and the pending entries -/

@[simp] theorem State.postAll_pending (s : State) (bs : List Body) :
    (s.postAll bs).pending = s.pending := by
  rw [State.postAll_eq]

@[simp] theorem State.appendResult_pending (s : State) (tag : Byte) (r : CalResult) :
    (s.appendResult tag r).pending = s.pending := by
  unfold State.appendResult
  repeat' split
  all_goals rfl

@[simp] theorem State.handResult_pending (s : State) (c : ChannelNo) (j : Job) :
    (s.handResult c j).pending = s.pending := by
  unfold State.handResult
  split
  · rfl
  · split
    · exact s.appendResult_pending _ _
    · exact s.post_pending _

@[simp] theorem State.endJob_pending (s : State) (c : ChannelNo) (j : Job) (o : CalOutcome) (ch : Channel)
    (events : List Body) : (s.endJob c j o ch events).pending = s.pending := by
  simp [State.endJob]

@[simp] theorem State.closeEntryOf_pending (s : State) (origin : JobOrigin) (status : Option Status) :
    (s.closeEntryOf origin status).pending = s.pending := by
  unfold State.closeEntryOf
  repeat' split
  all_goals rfl

@[simp] theorem State.abortJob_pending (s : State) (c : ChannelNo) :
    (s.abortJob c).pending = s.pending := by
  unfold State.abortJob
  split
  · exact s.endJob_pending _ _ _ _ _
  · rfl

@[simp] theorem State.abortJobsOfTag_pending (s : State) (tag : Byte) :
    (s.abortJobsOfTag tag).pending = s.pending :=
  List.foldlRecOn (motive := fun u : State => u.pending = s.pending) _ State.abortJob rfl
    fun u hu c _ => (u.abortJob_pending c).trans hu

@[simp] theorem State.cancelCalibrate_pending (s : State) (tag : Byte) :
    (s.cancelCalibrate tag).pending = s.pending := by
  have aborted := s.abortJobsOfTag_pending tag
  unfold State.cancelCalibrate
  dsimp only
  split
  · exact (State.completeEntry_pending _ _ _).trans aborted
  · exact aborted

@[simp] theorem State.createJobs_pending (s : State) (tag : Byte) (cs : List ChannelNo) :
    (s.createJobs tag cs).pending = s.pending :=
  List.foldlRecOn (motive := fun u : State => u.pending = s.pending) cs _ rfl
    fun u hu c _ => (u.createJob_pending c _).trans hu

/-! ## The blocks -/

/-- No move of a block touches the commands that wait. -/
theorem Move.pending (h : Move s t) : t.pending = s.pending := by
  cases h with
  | ended c j o ch events status => simp
  | cancelled e => exact s.cancelCalibrate_pending e.tag
  | channels f => exact s.mapChannels_pending f
  | keys f => exact s.mapKeys_pending f
  | post | sched | freed | taken | abandon | drawn | channel | create | advance | measured | completed => rfl

theorem Moves.pending (h : Moves s t) : t.pending = s.pending :=
  h.keeps (p := fun u => u.pending = s.pending) (fun _ _ hm hu => hm.pending.trans hu) rfl

theorem State.settleEnd_pending (s : State) (e : EngineId) : (s.settleEnd e).pending = s.pending := by
  unfold State.settleEnd
  split <;> rfl

theorem State.halfWindowEnd_pending (s : State) (e : EngineId) (cycles : Nat) :
    (s.halfWindowEnd e cycles).pending = s.pending := by
  unfold State.halfWindowEnd
  split <;> rfl

/-! ## The requests -/

/-- A refusal touches no command that waits; so a request touches none where its effect touches none. -/
theorem State.perform_pending {α : Type} (s : State) (tag : Byte) (operands : Except Status α)
    (checks : α → List (Bool × Status)) {effect : α → State}
    (h : ∀ x, (effect x).pending = s.pending) :
    (s.perform tag operands checks effect).pending = s.pending := by
  rcases s.perform_cases tag operands checks effect with ⟨status, he, -⟩ | ⟨x, -, -, he⟩ <;> rw [he]
  · rfl
  · exact h x

theorem State.takeRequest_pending (s : State) (ok : Byte → Bool) {handle : State → Frame → State}
    (h : ∀ (u : State) (f : Frame), (handle u f).pending = u.pending) :
    (s.takeRequest ok handle).pending = s.pending := by
  rcases s.takeRequest_cases ok handle with he | ⟨i, f, -, -, he⟩ <;> rw [he]
  exact (h _ f).trans (s.afterTake_pending i)

theorem State.doCalibrate_pending (s : State) (f : Frame) : (s.doCalibrate f).pending = s.pending :=
  s.perform_pending _ _ _ fun _ =>
    (Moves.workTaken _).pending.trans (State.createJobs_pending _ f.tag _)

theorem State.doCancel_pending (s : State) (f : Frame) : (s.doCancel f).pending = s.pending := by
  refine s.perform_pending _ _ _ fun tag => ?_
  split
  · rename_i e he
    obtain ⟨-, ht⟩ := State.mem_of_entryOfTag he
    exact (Moves.cancelEntry s e (ht ▸ he)).pending
  · rfl

/-- What the command processor does with any frame touches no command that waits. -/
theorem requestHandler_pending (c : Instr) (s : State) (f : Frame) :
    (requestHandler c s f).pending = s.pending := by
  cases c with
  | identify | status | getChannel | setKey | clearKey | getKey | setScan | getScan | setTiming | setEvents
  | restart =>
    unfold requestHandler
    refine s.perform_pending _ _ _ fun _ => ?_
    rfl
  | setChannel =>
    refine s.perform_pending _ _ _ fun x => ?_
    exact (Moves.autoJobIfScanned (s.setChan x.1 ((s.chan x.1).configure x.2)) x.1).pending
  | setMode => exact s.perform_pending _ _ _ fun m => (Moves.setMode s m).pending
  | calibrate => exact s.doCalibrate_pending f
  | measure => exact s.perform_pending _ _ _ fun _ => (Moves.workTaken _).pending
  | cancel => exact s.doCancel_pending f
  | _ => rfl

/-! ## The port and the resets -/

theorem State.writeAddress_pending (s : State) (address : BitVec 7) :
    (s.writeAddress address).pending = s.pending := by
  unfold State.writeAddress
  repeat' split
  all_goals rfl

theorem State.writeByte_pending (s : State) (b : Byte) : (s.writeByte b).pending = s.pending := by
  unfold State.writeByte State.writeLen State.writeNext
  repeat' split
  all_goals rfl

theorem State.readAddress_pending (s : State) (address : BitVec 7) :
    (s.readAddress address).pending = s.pending := by
  unfold State.readAddress
  repeat' split
  all_goals rfl

theorem State.flagsByteStart_pending (s : State) : s.flagsByteStart.pending = s.pending := by
  unfold State.flagsByteStart
  repeat' split
  all_goals rfl

theorem State.headRetire_pending (s : State) : s.headRetire.pending = s.pending := by
  unfold State.headRetire
  repeat' split
  all_goals rfl

theorem State.endRead_pending (s : State) (tr : Transmission) : (s.endRead tr).pending = s.pending := by
  unfold State.endRead
  dsimp only
  split <;> rfl

theorem State.judgeWrite_pending (s : State) (w : WriteRecord) :
    (s.judgeWrite w).pending = s.pending := by
  unfold State.judgeWrite State.discardFrame
  dsimp only
  repeat' split
  all_goals rfl

theorem State.transactionEnd_pending (s : State) : s.transactionEnd.pending = s.pending := by
  unfold State.transactionEnd
  split
  · rfl
  · split
    · rfl
    · exact s.judgeWrite_pending _
  · exact s.endRead_pending _

theorem State.busTimeout_pending (s : State) : s.busTimeout.pending = s.pending := by
  unfold State.busTimeout
  split
  · rfl
  · split <;> rfl
  · exact s.endRead_pending _

theorem State.resetRelease_pending (s : State) (adr1 adr0 : Bool) :
    (s.resetRelease adr1 adr0).pending = s.pending := by
  unfold State.resetRelease
  split <;> rfl

end Sys2Proof.Machine

namespace Sys2Proof

open Machine

/-- Settles O3: every arm of the dispatch answers a next state, whose commands that wait are those of the
request, the move of the blocks, the port or the reset that the command is. -/
theorem everyCommandAnswers : Obligations.EveryCommandAnswers := by
  intro c s
  cases c with
  | identify | status | setChannel | getChannel | setKey | clearKey | getKey | setScan | getScan | setTiming
  | setEvents | setMode | calibrate | measure | cancel | restart =>
    exact ⟨_, exec_request rfl s, s.takeRequest_pending _ (requestHandler_pending _)⟩
  | unknownRequest => exact ⟨_, rfl, s.takeRequest_pending _ (requestHandler_pending .unknownRequest)⟩
  | settleEnd e => exact ⟨_, rfl, s.settleEnd_pending e⟩
  | halfWindowEnd e cycles => exact ⟨_, rfl, s.halfWindowEnd_pending e cycles⟩
  | burstComplete e cycles => exact ⟨_, rfl, (Moves.burstComplete s e cycles).pending⟩
  | periodExpiry => exact ⟨_, rfl, (Moves.periodExpiry s).pending⟩
  | inactivityExpiry => exact ⟨_, rfl, (Moves.inactivityExpiry s).pending⟩
  | maxOnExpiry n =>
    refine ⟨_, rfl, ?_⟩
    split
    · exact (Moves.maxOnExpiry s _).pending
    · rfl
  | writeAddress a => exact ⟨_, rfl, s.writeAddress_pending a⟩
  | writeByte b => exact ⟨_, rfl, s.writeByte_pending b⟩
  | transactionEnd kind => exact ⟨_, rfl, s.transactionEnd_pending⟩
  | readAddress a => exact ⟨_, rfl, s.readAddress_pending a⟩
  | headRetire => exact ⟨_, rfl, s.headRetire_pending⟩
  | busTimeout => exact ⟨_, rfl, s.busTimeout_pending⟩
  | powerOnReset | pinReset => exact ⟨_, rfl, rfl⟩
  | resetRelease adr1 adr0 => exact ⟨_, rfl, s.resetRelease_pending adr1 adr0⟩
  | flagsByteStart => exact ⟨_, rfl, s.flagsByteStart_pending⟩

/-- Settles O1: a step looks at the front of the queue first, and runs what it finds there. -/
theorem stepRunsFrontCommand : Obligations.StepRunsFrontCommand := by
  intro c rest s
  rfl

end Sys2Proof
end
